-- ==== Sys2Proof/Word.lean ====
section
/-! DEFINITION. The words of the machine: 32-bit words (command words, exponents, control registers),
register selectors, and the value of `N` digits of `W` bits (`00_scope.md` R5, R7, R10, R11). -/

namespace Sys2Proof

/-- A 32-bit word: a command word (R72), an exponent (R7) or a control register (R29). -/
abbrev Word := BitVec 32

/-- A register selector: eight value registers and eight exponent registers (R10). -/
abbrev Reg := Fin 8

/-- A value (R11): an ordered, fixed-length sequence of exactly `n` digits of `w` bits each, stored
least significant digit first. Every digit array is a legal value; leading zero digits are permitted. -/
structure Value (w n : Nat) where
  digits : List (BitVec w)
  length_digits : digits.length = n
deriving DecidableEq, Repr

/-- The value with the same digit at every index. -/
def Value.replicate {w : Nat} (n : Nat) (d : BitVec w) : Value w n :=
  ⟨List.replicate n d, List.length_replicate⟩

/-- The sum of `d[i] * BASE^i` over a list of digits, least significant digit first (R11). -/
def natOfDigits {w : Nat} : List (BitVec w) → Nat
  | [] => 0
  | d :: ds => d.toNat + 2 ^ w * natOfDigits ds

/-- `val(a)`, the unsigned number a value stands for (R11). -/
def Value.val {w n : Nat} (a : Value w n) : Nat :=
  natOfDigits a.digits

end Sys2Proof
end

