-- ==== Sys2Proof/Syntax.lean ====
section
/-! DEFINITION. The abstract syntax of the MDAU's commands: one constructor per row of
`spec/opcode_table.json`, 125 in all (`30_encoding.md` R78). A constructor holds exactly the fields its
command reads ("Fields used"); the variant and the sign are part of the constructor. -/

namespace Sys2Proof

/-- The `idx` field (R74): an unsigned 16-bit number, a digit index or a control register number. -/
abbrev DigitIdx := BitVec 16

/-- A command. Operand order is that of the written form (R82): the destination first. -/
inductive Instr where
  -- Data movement and control (`41_data_movement.md`)
  /-- `NOP` (R120). -/
  | nop
  /-- `MOV Vd, Vs` (R121). -/
  | mov (rd rs1 : Reg)
  /-- `LDD Vr[idx], #d` (R122). -/
  | ldd (r : Reg) (idx : DigitIdx)
  /-- `STD Vr[idx]` (R123). -/
  | std (r : Reg) (idx : DigitIdx)
  /-- `LDS Vr, #d` (R124). -/
  | lds (r : Reg)
  /-- `LDX Xd, #e` (R125). -/
  | ldx (xr : Reg)
  /-- `STX Xs` (R126). -/
  | stx (xr : Reg)
  /-- `RCS csr` (R127). -/
  | rcs (idx : DigitIdx)
  /-- `FCLR` (R128). -/
  | fclr
  -- Comparison and test (`42_compare_test.md`)
  /-- `CMP Vs1, Vs2` (R142). -/
  | cmp (rs1 rs2 : Reg)
  /-- `CMP.S Vs1, Vs2` (R143). -/
  | cmpS (rs1 rs2 : Reg)
  /-- `EQ Vs1, Vs2` (R144). -/
  | eq (rs1 rs2 : Reg)
  /-- `ISZ Vs` (R145). -/
  | isz (rs1 : Reg)
  /-- `ISONE Vs` (R146). -/
  | isone (rs1 : Reg)
  /-- `ISP2 Vs` (R147). -/
  | isp2 (rs1 : Reg)
  /-- `ISNEG Vs` (R148). -/
  | isneg (rs1 : Reg)
  /-- `BLEN Xd, Vs` (R149). -/
  | blen (xr rs1 : Reg)
  /-- `BIT Vs, Xs` (R150). -/
  | bit (rs1 xr : Reg)
  -- Barrel shifter (`43_shift_rotate.md`)
  /-- `SHL.W Vd, Vs, Xs` (R164). -/
  | shlW (rd rs1 xr : Reg)
  /-- `SHL.C Vd, Vs, Xs` (R164). -/
  | shlC (rd rs1 xr : Reg)
  /-- `SHL.O Vd, Vs, Xs` (R164). -/
  | shlO (rd rs1 xr : Reg)
  /-- `SHL Vd, Vs, Xs` (R164). -/
  | shl (rd rs1 xr : Reg)
  /-- `SHR.W Vd, Vs, Xs` (R165). -/
  | shrW (rd rs1 xr : Reg)
  /-- `SHR.C Vd, Vs, Xs` (R165). -/
  | shrC (rd rs1 xr : Reg)
  /-- `SHR.O Vd, Vs, Xs` (R165). -/
  | shrO (rd rs1 xr : Reg)
  /-- `SHR Vd, Vs, Xs` (R165). -/
  | shr (rd rs1 xr : Reg)
  /-- `SHR.W.S Vd, Vs, Xs` (R166). -/
  | shrWS (rd rs1 xr : Reg)
  /-- `SHR.C.S Vd, Vs, Xs` (R166). -/
  | shrCS (rd rs1 xr : Reg)
  /-- `SHR.O.S Vd, Vs, Xs` (R166). -/
  | shrOS (rd rs1 xr : Reg)
  /-- `SHR.S Vd, Vs, Xs` (R166). -/
  | shrS (rd rs1 xr : Reg)
  /-- `ROTL Vd, Vs, Xs` (R168). -/
  | rotl (rd rs1 xr : Reg)
  /-- `ROTR Vd, Vs, Xs` (R169). -/
  | rotr (rd rs1 xr : Reg)
  -- Bit counting, reversal, complement (`44_bit_count.md`)
  /-- `CLZ Xd, Vs` (R182). -/
  | clz (xr rs1 : Reg)
  /-- `CTZ Xd, Vs` (R183). -/
  | ctz (xr rs1 : Reg)
  /-- `CLO Xd, Vs` (R184). -/
  | clo (xr rs1 : Reg)
  /-- `CTO Xd, Vs` (R185). -/
  | cto (xr rs1 : Reg)
  /-- `CNT1 Xd, Vs` (R187). -/
  | cnt1 (xr rs1 : Reg)
  /-- `CNT0 Xd, Vs` (R188). -/
  | cnt0 (xr rs1 : Reg)
  /-- `SWAPB Vd, Vs` (R192). -/
  | swapb (rd rs1 : Reg)
  /-- `REVB Vd, Vs` (R193). -/
  | revb (rd rs1 : Reg)
  /-- `NOT Vd, Vs` (R194). -/
  | not (rd rs1 : Reg)
  -- Adder and subtractor (`45_add_sub.md`)
  /-- `ADD.W Vd, Vs1, Vs2` (R202). -/
  | addW (rd rs1 rs2 : Reg)
  /-- `ADD.C Vd, Vs1, Vs2` (R202). -/
  | addC (rd rs1 rs2 : Reg)
  /-- `ADD.O Vd, Vs1, Vs2` (R202). -/
  | addO (rd rs1 rs2 : Reg)
  /-- `ADD.SAT Vd, Vs1, Vs2` (R202). -/
  | addSat (rd rs1 rs2 : Reg)
  /-- `ADD Vd, Vs1, Vs2` (R202). -/
  | add (rd rs1 rs2 : Reg)
  /-- `ADD.W.S Vd, Vs1, Vs2` (R204). -/
  | addWS (rd rs1 rs2 : Reg)
  /-- `ADD.C.S Vd, Vs1, Vs2` (R204). -/
  | addCS (rd rs1 rs2 : Reg)
  /-- `ADD.O.S Vd, Vs1, Vs2` (R204). -/
  | addOS (rd rs1 rs2 : Reg)
  /-- `ADD.SAT.S Vd, Vs1, Vs2` (R204). -/
  | addSatS (rd rs1 rs2 : Reg)
  /-- `ADD.S Vd, Vs1, Vs2` (R204). -/
  | addS (rd rs1 rs2 : Reg)
  /-- `SUB.W Vd, Vs1, Vs2` (R203). -/
  | subW (rd rs1 rs2 : Reg)
  /-- `SUB.C Vd, Vs1, Vs2` (R203). -/
  | subC (rd rs1 rs2 : Reg)
  /-- `SUB.O Vd, Vs1, Vs2` (R203). -/
  | subO (rd rs1 rs2 : Reg)
  /-- `SUB.SAT Vd, Vs1, Vs2` (R203). -/
  | subSat (rd rs1 rs2 : Reg)
  /-- `SUB Vd, Vs1, Vs2` (R203). -/
  | sub (rd rs1 rs2 : Reg)
  /-- `SUB.W.S Vd, Vs1, Vs2` (R205). -/
  | subWS (rd rs1 rs2 : Reg)
  /-- `SUB.C.S Vd, Vs1, Vs2` (R205). -/
  | subCS (rd rs1 rs2 : Reg)
  /-- `SUB.O.S Vd, Vs1, Vs2` (R205). -/
  | subOS (rd rs1 rs2 : Reg)
  /-- `SUB.SAT.S Vd, Vs1, Vs2` (R205). -/
  | subSatS (rd rs1 rs2 : Reg)
  /-- `SUB.S Vd, Vs1, Vs2` (R205). -/
  | subS (rd rs1 rs2 : Reg)
  -- Multiplier (`46_multiply.md`)
  /-- `MUL.W Vd, Vs1, Vs2` (R222). -/
  | mulW (rd rs1 rs2 : Reg)
  /-- `MUL.C Vd, Vs1, Vs2` (R222). -/
  | mulC (rd rs1 rs2 : Reg)
  /-- `MUL.O Vd, Vs1, Vs2` (R222). -/
  | mulO (rd rs1 rs2 : Reg)
  /-- `MUL.SAT Vd, Vs1, Vs2` (R222). -/
  | mulSat (rd rs1 rs2 : Reg)
  /-- `MUL Vd, Vs1, Vs2` (R222). -/
  | mul (rd rs1 rs2 : Reg)
  /-- `MUL.W.S Vd, Vs1, Vs2` (R224). -/
  | mulWS (rd rs1 rs2 : Reg)
  /-- `MUL.C.S Vd, Vs1, Vs2` (R224). -/
  | mulCS (rd rs1 rs2 : Reg)
  /-- `MUL.O.S Vd, Vs1, Vs2` (R224). -/
  | mulOS (rd rs1 rs2 : Reg)
  /-- `MUL.SAT.S Vd, Vs1, Vs2` (R224). -/
  | mulSatS (rd rs1 rs2 : Reg)
  /-- `MUL.S Vd, Vs1, Vs2` (R224). -/
  | mulS (rd rs1 rs2 : Reg)
  -- Divider (`47_divide.md`)
  /-- `DIV.W Vd, Vs1, Vs2` (R243). -/
  | divW (rd rs1 rs2 : Reg)
  /-- `DIV.C Vd, Vs1, Vs2` (R243). -/
  | divC (rd rs1 rs2 : Reg)
  /-- `DIV.O Vd, Vs1, Vs2` (R243). -/
  | divO (rd rs1 rs2 : Reg)
  /-- `DIV.SAT Vd, Vs1, Vs2` (R243). -/
  | divSat (rd rs1 rs2 : Reg)
  /-- `DIV Vd, Vs1, Vs2` (R243). -/
  | div (rd rs1 rs2 : Reg)
  /-- `DIV.W.S Vd, Vs1, Vs2` (R247). -/
  | divWS (rd rs1 rs2 : Reg)
  /-- `DIV.C.S Vd, Vs1, Vs2` (R247). -/
  | divCS (rd rs1 rs2 : Reg)
  /-- `DIV.O.S Vd, Vs1, Vs2` (R247). -/
  | divOS (rd rs1 rs2 : Reg)
  /-- `DIV.SAT.S Vd, Vs1, Vs2` (R247). -/
  | divSatS (rd rs1 rs2 : Reg)
  /-- `DIV.S Vd, Vs1, Vs2` (R247). -/
  | divS (rd rs1 rs2 : Reg)
  /-- `REM.W Vd, Vs1, Vs2` (R244). -/
  | remW (rd rs1 rs2 : Reg)
  /-- `REM.C Vd, Vs1, Vs2` (R244). -/
  | remC (rd rs1 rs2 : Reg)
  /-- `REM.O Vd, Vs1, Vs2` (R244). -/
  | remO (rd rs1 rs2 : Reg)
  /-- `REM Vd, Vs1, Vs2` (R244). -/
  | rem (rd rs1 rs2 : Reg)
  /-- `REM.W.S Vd, Vs1, Vs2` (R248). -/
  | remWS (rd rs1 rs2 : Reg)
  /-- `REM.C.S Vd, Vs1, Vs2` (R248). -/
  | remCS (rd rs1 rs2 : Reg)
  /-- `REM.O.S Vd, Vs1, Vs2` (R248). -/
  | remOS (rd rs1 rs2 : Reg)
  /-- `REM.S Vd, Vs1, Vs2` (R248). -/
  | remS (rd rs1 rs2 : Reg)
  /-- `DIVE.W Vd, Vs1, Vs2` (R245). -/
  | diveW (rd rs1 rs2 : Reg)
  /-- `DIVE.C Vd, Vs1, Vs2` (R245). -/
  | diveC (rd rs1 rs2 : Reg)
  /-- `DIVE.O Vd, Vs1, Vs2` (R245). -/
  | diveO (rd rs1 rs2 : Reg)
  /-- `DIVE.SAT Vd, Vs1, Vs2` (R245). -/
  | diveSat (rd rs1 rs2 : Reg)
  /-- `DIVE Vd, Vs1, Vs2` (R245). -/
  | dive (rd rs1 rs2 : Reg)
  /-- `DIVE.W.S Vd, Vs1, Vs2` (R249). -/
  | diveWS (rd rs1 rs2 : Reg)
  /-- `DIVE.C.S Vd, Vs1, Vs2` (R249). -/
  | diveCS (rd rs1 rs2 : Reg)
  /-- `DIVE.O.S Vd, Vs1, Vs2` (R249). -/
  | diveOS (rd rs1 rs2 : Reg)
  /-- `DIVE.SAT.S Vd, Vs1, Vs2` (R249). -/
  | diveSatS (rd rs1 rs2 : Reg)
  /-- `DIVE.S Vd, Vs1, Vs2` (R249). -/
  | diveS (rd rs1 rs2 : Reg)
  /-- `REME.W Vd, Vs1, Vs2` (R246). -/
  | remeW (rd rs1 rs2 : Reg)
  /-- `REME.C Vd, Vs1, Vs2` (R246). -/
  | remeC (rd rs1 rs2 : Reg)
  /-- `REME.O Vd, Vs1, Vs2` (R246). -/
  | remeO (rd rs1 rs2 : Reg)
  /-- `REME Vd, Vs1, Vs2` (R246). -/
  | reme (rd rs1 rs2 : Reg)
  /-- `REME.W.S Vd, Vs1, Vs2` (R250). -/
  | remeWS (rd rs1 rs2 : Reg)
  /-- `REME.C.S Vd, Vs1, Vs2` (R250). -/
  | remeCS (rd rs1 rs2 : Reg)
  /-- `REME.O.S Vd, Vs1, Vs2` (R250). -/
  | remeOS (rd rs1 rs2 : Reg)
  /-- `REME.S Vd, Vs1, Vs2` (R250). -/
  | remeS (rd rs1 rs2 : Reg)
  -- GCD, LOG2, NPOT (`48_gcd_log_npot.md`)
  /-- `GCD Vd, Vs1, Vs2` (R261). -/
  | gcd (rd rs1 rs2 : Reg)
  /-- `LOG2.C Xd, Vs` (R263). -/
  | log2C (xr rs1 : Reg)
  /-- `LOG2 Xd, Vs` (R263). -/
  | log2 (xr rs1 : Reg)
  /-- `NPOT.W Vd, Vs` (R265). -/
  | npotW (rd rs1 : Reg)
  /-- `NPOT.C Vd, Vs` (R265). -/
  | npotC (rd rs1 : Reg)
  /-- `NPOT.O Vd, Vs` (R265). -/
  | npotO (rd rs1 : Reg)
  /-- `NPOT Vd, Vs` (R265). -/
  | npot (rd rs1 : Reg)
  -- Two's-complement layer (`49_twos_complement.md`)
  /-- `NEG.W Vd, Vs` (R283). -/
  | negW (rd rs1 : Reg)
  /-- `NEG.W.S Vd, Vs` (R284). -/
  | negWS (rd rs1 : Reg)
  /-- `NEG.C.S Vd, Vs` (R284). -/
  | negCS (rd rs1 : Reg)
  /-- `NEG.O.S Vd, Vs` (R284). -/
  | negOS (rd rs1 : Reg)
  /-- `NEG.SAT.S Vd, Vs` (R284). -/
  | negSatS (rd rs1 : Reg)
  /-- `NEG.S Vd, Vs` (R284). -/
  | negS (rd rs1 : Reg)
  /-- `ABS.W.S Vd, Vs` (R285). -/
  | absWS (rd rs1 : Reg)
  /-- `ABS.C.S Vd, Vs` (R285). -/
  | absCS (rd rs1 : Reg)
  /-- `ABS.O.S Vd, Vs` (R285). -/
  | absOS (rd rs1 : Reg)
  /-- `ABS.SAT.S Vd, Vs` (R285). -/
  | absSatS (rd rs1 : Reg)
  /-- `ABS.S Vd, Vs` (R285). -/
  | absS (rd rs1 : Reg)
deriving DecidableEq, Repr

end Sys2Proof
end

