-- ==== Sys2Proof/WellFormed.lean ====
section
/-! DEFINITION. Which commands the encoding admits. Register selectors and digit indices are bounded by
their types; the one bound a type does not carry is that of the control register number. -/

namespace Sys2Proof

/-- The control registers are numbered 0 to 6; any other number is an illegal command (R29, R79). -/
def isCsr (idx : DigitIdx) : Bool := decide (idx.toNat ≤ 6)

/-- A command that has an encoding. A digit index of `N` or more is well formed: `LDD` and `STD` check it
when they execute (R122, R123). -/
def Instr.wellFormed : Instr → Bool
  | .rcs idx => isCsr idx
  | _ => true

end Sys2Proof
end

