-- ==== Sys2Proof/Decode.lean ====
section
/-! DEFINITION. Decoding and encoding of command words (`30_encoding.md` R72 to R81). `decode` is total on
all 32-bit words and names the check that failed; `encode` writes the word of a command from the same
tables. -/

namespace Sys2Proof

/-- Why a word is no legal command (R79), in the order of the checks of R80. The unit itself reports all
of them as the one cause `Illegal`; the names are the model's (log 22). -/
inductive Illegal where
  /-- `OP` is not in the opcode map. -/
  | unknownOpcode
  /-- A must-be-zero bit is 1, or a field the command does not use is not 0. -/
  | mustBeZero
  /-- `VAR` is not legal for the opcode. -/
  | variant
  /-- `SGN` is not legal for the opcode and variant. -/
  | sign
  /-- `RCS` with a register number above 6. -/
  | operand
deriving DecidableEq, Repr

/-- `cmd[7:0]`, the opcode of every format (R72). -/
def opField (w : Word) : BitVec 8 := w.extractLsb' 0 8

/-- `cmd[10:8]`, the overflow variant (R73, R76). -/
def varField (w : Word) : BitVec 3 := w.extractLsb' 8 3

/-- `cmd[11]`, the signed reading (R73, R77). -/
def sgnField (w : Word) : BitVec 1 := w.extractLsb' 11 1

/-- `cmd[31:16]`, digit index or control register number (R74). -/
def idxField (w : Word) : DigitIdx := w.extractLsb' 16 16

/-- The register fields of format R (R73); `rd` stands where format D has `r` (R74). -/
inductive RegField where
  | rd
  | rs1
  | rs2
  | xr
deriving DecidableEq, Repr

/-- The lowest bit of a register field (R73). -/
def regFieldLow (f : RegField) : Nat :=
  match f with
  | .rd => 12
  | .rs1 => 15
  | .rs2 => 18
  | .xr => 21

/-- The three bits of a register field. -/
def regBits (f : RegField) (w : Word) : BitVec 3 := w.extractLsb' (regFieldLow f) 3

/-- The register a 3-bit selector names. -/
def regOfBits (b : BitVec 3) : Reg := b.toFin

/-- The 3-bit selector of a register. -/
def bitsOfReg (r : Reg) : BitVec 3 := BitVec.ofFin r

/-- The register a field selects. -/
def regField (f : RegField) (w : Word) : Reg := regOfBits (regBits f w)

/-- The legal `VAR` values of an opcode under one reading, with the command each selects (R78). -/
abbrev VariantRow := List (Nat × Instr)

/-- Format R (R73): bits 31:24 and every unused register field must be 0, then `VAR`, then `SGN` must be
ones the opcode map lists (R78, R79, R80). -/
def formR (w : Word) (unused : List RegField) (unsigned signed : VariantRow) : Except Illegal Instr :=
  if w.extractLsb' 24 8 == 0#8 && unused.all (fun f => regBits f w == 0#3) then
    match (if sgnField w == 1#1 then signed else unsigned).lookup (varField w).toNat with
    | some i => .ok i
    | none =>
      .error (if (unsigned ++ signed).any (fun p => p.1 == (varField w).toNat) then .sign else .variant)
  else .error .mustBeZero

/-- Format D (R74): bits 15 and 11:8 must be 0, and so must `r` and `idx` where the command does not use
them. -/
def formD (w : Word) (usesR usesIdx : Bool) (i : Instr) : Except Illegal Instr :=
  if w.extractLsb' 15 1 == 0#1 && w.extractLsb' 8 4 == 0#4
      && (usesR || regBits .rd w == 0#3) && (usesIdx || idxField w == 0#16) then
    if i.wellFormed then .ok i else .error .operand
  else .error .mustBeZero

/-- Format Z (R75): bits 31:8 must be 0. -/
def formZ (w : Word) (i : Instr) : Except Illegal Instr :=
  if w.extractLsb' 8 24 == 0#24 then .ok i else .error .mustBeZero

/-- The decoding procedure, steps (2) and (3) of R80, over the opcode map of R78. Step (1), the rejection
while a fault is active, comes before it, in `Machine.transact`. -/
def decode (w : Word) : Except Illegal Instr :=
  let rd := regField .rd w
  let rs1 := regField .rs1 w
  let rs2 := regField .rs2 w
  let xr := regField .xr w
  let idx := idxField w
  match (opField w).toNat with
  | 0x00 => formZ w .nop
  | 0x01 => formR w [.rs2, .xr] [(0, .mov rd rs1)] []
  | 0x02 => formD w true true (.ldd rd idx)
  | 0x03 => formD w true true (.std rd idx)
  | 0x04 => formD w true false (.lds rd)
  | 0x05 => formR w [.rd, .rs1, .rs2] [(0, .ldx xr)] []
  | 0x06 => formR w [.rd, .rs1, .rs2] [(0, .stx xr)] []
  | 0x07 => formD w false true (.rcs idx)
  | 0x08 => formZ w .fclr
  | 0x10 => formR w [.rd, .xr] [(0, .cmp rs1 rs2)] [(0, .cmpS rs1 rs2)]
  | 0x11 => formR w [.rd, .xr] [(0, .eq rs1 rs2)] []
  | 0x12 => formR w [.rd, .rs2, .xr] [(0, .isz rs1)] []
  | 0x13 => formR w [.rd, .rs2, .xr] [(0, .isone rs1)] []
  | 0x14 => formR w [.rd, .rs2, .xr] [(0, .isp2 rs1)] []
  | 0x15 => formR w [.rd, .rs2, .xr] [(0, .isneg rs1)] []
  | 0x16 => formR w [.rd, .rs2] [(0, .blen xr rs1)] []
  | 0x17 => formR w [.rd, .rs2] [(0, .bit rs1 xr)] []
  | 0x20 => formR w [.rs2]
      [(0, .shlW rd rs1 xr), (1, .shlC rd rs1 xr), (2, .shlO rd rs1 xr), (4, .shl rd rs1 xr)]
      []
  | 0x21 => formR w [.rs2]
      [(0, .shrW rd rs1 xr), (1, .shrC rd rs1 xr), (2, .shrO rd rs1 xr), (4, .shr rd rs1 xr)]
      [(0, .shrWS rd rs1 xr), (1, .shrCS rd rs1 xr), (2, .shrOS rd rs1 xr), (4, .shrS rd rs1 xr)]
  | 0x22 => formR w [.rs2] [(0, .rotl rd rs1 xr)] []
  | 0x23 => formR w [.rs2] [(0, .rotr rd rs1 xr)] []
  | 0x24 => formR w [.rd, .rs2] [(0, .clz xr rs1)] []
  | 0x25 => formR w [.rd, .rs2] [(0, .ctz xr rs1)] []
  | 0x26 => formR w [.rd, .rs2] [(0, .clo xr rs1)] []
  | 0x27 => formR w [.rd, .rs2] [(0, .cto xr rs1)] []
  | 0x28 => formR w [.rd, .rs2] [(0, .cnt1 xr rs1)] []
  | 0x29 => formR w [.rd, .rs2] [(0, .cnt0 xr rs1)] []
  | 0x2A => formR w [.rs2, .xr] [(0, .swapb rd rs1)] []
  | 0x2B => formR w [.rs2, .xr] [(0, .revb rd rs1)] []
  | 0x2C => formR w [.rs2, .xr] [(0, .not rd rs1)] []
  | 0x30 => formR w [.xr]
      [(0, .addW rd rs1 rs2), (1, .addC rd rs1 rs2), (2, .addO rd rs1 rs2), (3, .addSat rd rs1 rs2), (4, .add rd rs1 rs2)]
      [(0, .addWS rd rs1 rs2), (1, .addCS rd rs1 rs2), (2, .addOS rd rs1 rs2), (3, .addSatS rd rs1 rs2), (4, .addS rd rs1 rs2)]
  | 0x31 => formR w [.xr]
      [(0, .subW rd rs1 rs2), (1, .subC rd rs1 rs2), (2, .subO rd rs1 rs2), (3, .subSat rd rs1 rs2), (4, .sub rd rs1 rs2)]
      [(0, .subWS rd rs1 rs2), (1, .subCS rd rs1 rs2), (2, .subOS rd rs1 rs2), (3, .subSatS rd rs1 rs2), (4, .subS rd rs1 rs2)]
  | 0x32 => formR w [.xr]
      [(0, .mulW rd rs1 rs2), (1, .mulC rd rs1 rs2), (2, .mulO rd rs1 rs2), (3, .mulSat rd rs1 rs2), (4, .mul rd rs1 rs2)]
      [(0, .mulWS rd rs1 rs2), (1, .mulCS rd rs1 rs2), (2, .mulOS rd rs1 rs2), (3, .mulSatS rd rs1 rs2), (4, .mulS rd rs1 rs2)]
  | 0x33 => formR w [.xr]
      [(0, .divW rd rs1 rs2), (1, .divC rd rs1 rs2), (2, .divO rd rs1 rs2), (3, .divSat rd rs1 rs2), (4, .div rd rs1 rs2)]
      [(0, .divWS rd rs1 rs2), (1, .divCS rd rs1 rs2), (2, .divOS rd rs1 rs2), (3, .divSatS rd rs1 rs2), (4, .divS rd rs1 rs2)]
  | 0x34 => formR w [.xr]
      [(0, .remW rd rs1 rs2), (1, .remC rd rs1 rs2), (2, .remO rd rs1 rs2), (4, .rem rd rs1 rs2)]
      [(0, .remWS rd rs1 rs2), (1, .remCS rd rs1 rs2), (2, .remOS rd rs1 rs2), (4, .remS rd rs1 rs2)]
  | 0x35 => formR w [.xr]
      [(0, .diveW rd rs1 rs2), (1, .diveC rd rs1 rs2), (2, .diveO rd rs1 rs2), (3, .diveSat rd rs1 rs2), (4, .dive rd rs1 rs2)]
      [(0, .diveWS rd rs1 rs2), (1, .diveCS rd rs1 rs2), (2, .diveOS rd rs1 rs2), (3, .diveSatS rd rs1 rs2), (4, .diveS rd rs1 rs2)]
  | 0x36 => formR w [.xr]
      [(0, .remeW rd rs1 rs2), (1, .remeC rd rs1 rs2), (2, .remeO rd rs1 rs2), (4, .reme rd rs1 rs2)]
      [(0, .remeWS rd rs1 rs2), (1, .remeCS rd rs1 rs2), (2, .remeOS rd rs1 rs2), (4, .remeS rd rs1 rs2)]
  | 0x37 => formR w [.xr] [(0, .gcd rd rs1 rs2)] []
  | 0x38 => formR w [.rd, .rs2] [(1, .log2C xr rs1), (4, .log2 xr rs1)] []
  | 0x39 => formR w [.rs2, .xr]
      [(0, .npotW rd rs1), (1, .npotC rd rs1), (2, .npotO rd rs1), (4, .npot rd rs1)]
      []
  | 0x40 => formR w [.rs2, .xr]
      [(0, .negW rd rs1)]
      [(0, .negWS rd rs1), (1, .negCS rd rs1), (2, .negOS rd rs1), (3, .negSatS rd rs1), (4, .negS rd rs1)]
  | 0x41 => formR w [.rs2, .xr]
      []
      [(0, .absWS rd rs1), (1, .absCS rd rs1), (2, .absOS rd rs1), (3, .absSatS rd rs1), (4, .absS rd rs1)]
  | _ => .error .unknownOpcode

/-- A field of `k` bits placed with its lowest bit at bit `low` of a word. -/
def placeField {k : Nat} (b : BitVec k) (low : Nat) : Word := b.setWidth 32 <<< low

/-- A format R word (R73): `OP | VAR<<8 | SGN<<11 | rd<<12 | rs1<<15 | rs2<<18 | xr<<21` (R81). -/
def encodeR (op : BitVec 8) (var : BitVec 3) (sgn : BitVec 1) (rd rs1 rs2 xr : Reg) : Word :=
  placeField op 0 ||| placeField var 8 ||| placeField sgn 11 ||| placeField (bitsOfReg rd) 12
    ||| placeField (bitsOfReg rs1) 15 ||| placeField (bitsOfReg rs2) 18 ||| placeField (bitsOfReg xr) 21

/-- A format D word (R74): `OP | r<<12 | idx<<16` (R81). -/
def encodeD (op : BitVec 8) (r : Reg) (idx : DigitIdx) : Word :=
  placeField op 0 ||| placeField (bitsOfReg r) 12 ||| placeField idx 16

/-- A format Z word (R75): `OP` (R81). -/
def encodeZ (op : BitVec 8) : Word := placeField op 0

/-- The word of a command (R81), with the opcode, `VAR` and `SGN` of its row of R78 and every unused
field 0. -/
def encode (i : Instr) : Word :=
  match i with
  | .nop => encodeZ 0x00#8
  | .mov rd rs1 => encodeR 0x01#8 0#3 0#1 rd rs1 0 0
  | .ldd r idx => encodeD 0x02#8 r idx
  | .std r idx => encodeD 0x03#8 r idx
  | .lds r => encodeD 0x04#8 r 0
  | .ldx xr => encodeR 0x05#8 0#3 0#1 0 0 0 xr
  | .stx xr => encodeR 0x06#8 0#3 0#1 0 0 0 xr
  | .rcs idx => encodeD 0x07#8 0 idx
  | .fclr => encodeZ 0x08#8
  | .cmp rs1 rs2 => encodeR 0x10#8 0#3 0#1 0 rs1 rs2 0
  | .cmpS rs1 rs2 => encodeR 0x10#8 0#3 1#1 0 rs1 rs2 0
  | .eq rs1 rs2 => encodeR 0x11#8 0#3 0#1 0 rs1 rs2 0
  | .isz rs1 => encodeR 0x12#8 0#3 0#1 0 rs1 0 0
  | .isone rs1 => encodeR 0x13#8 0#3 0#1 0 rs1 0 0
  | .isp2 rs1 => encodeR 0x14#8 0#3 0#1 0 rs1 0 0
  | .isneg rs1 => encodeR 0x15#8 0#3 0#1 0 rs1 0 0
  | .blen xr rs1 => encodeR 0x16#8 0#3 0#1 0 rs1 0 xr
  | .bit rs1 xr => encodeR 0x17#8 0#3 0#1 0 rs1 0 xr
  | .shlW rd rs1 xr => encodeR 0x20#8 0#3 0#1 rd rs1 0 xr
  | .shlC rd rs1 xr => encodeR 0x20#8 1#3 0#1 rd rs1 0 xr
  | .shlO rd rs1 xr => encodeR 0x20#8 2#3 0#1 rd rs1 0 xr
  | .shl rd rs1 xr => encodeR 0x20#8 4#3 0#1 rd rs1 0 xr
  | .shrW rd rs1 xr => encodeR 0x21#8 0#3 0#1 rd rs1 0 xr
  | .shrC rd rs1 xr => encodeR 0x21#8 1#3 0#1 rd rs1 0 xr
  | .shrO rd rs1 xr => encodeR 0x21#8 2#3 0#1 rd rs1 0 xr
  | .shr rd rs1 xr => encodeR 0x21#8 4#3 0#1 rd rs1 0 xr
  | .shrWS rd rs1 xr => encodeR 0x21#8 0#3 1#1 rd rs1 0 xr
  | .shrCS rd rs1 xr => encodeR 0x21#8 1#3 1#1 rd rs1 0 xr
  | .shrOS rd rs1 xr => encodeR 0x21#8 2#3 1#1 rd rs1 0 xr
  | .shrS rd rs1 xr => encodeR 0x21#8 4#3 1#1 rd rs1 0 xr
  | .rotl rd rs1 xr => encodeR 0x22#8 0#3 0#1 rd rs1 0 xr
  | .rotr rd rs1 xr => encodeR 0x23#8 0#3 0#1 rd rs1 0 xr
  | .clz xr rs1 => encodeR 0x24#8 0#3 0#1 0 rs1 0 xr
  | .ctz xr rs1 => encodeR 0x25#8 0#3 0#1 0 rs1 0 xr
  | .clo xr rs1 => encodeR 0x26#8 0#3 0#1 0 rs1 0 xr
  | .cto xr rs1 => encodeR 0x27#8 0#3 0#1 0 rs1 0 xr
  | .cnt1 xr rs1 => encodeR 0x28#8 0#3 0#1 0 rs1 0 xr
  | .cnt0 xr rs1 => encodeR 0x29#8 0#3 0#1 0 rs1 0 xr
  | .swapb rd rs1 => encodeR 0x2A#8 0#3 0#1 rd rs1 0 0
  | .revb rd rs1 => encodeR 0x2B#8 0#3 0#1 rd rs1 0 0
  | .not rd rs1 => encodeR 0x2C#8 0#3 0#1 rd rs1 0 0
  | .addW rd rs1 rs2 => encodeR 0x30#8 0#3 0#1 rd rs1 rs2 0
  | .addC rd rs1 rs2 => encodeR 0x30#8 1#3 0#1 rd rs1 rs2 0
  | .addO rd rs1 rs2 => encodeR 0x30#8 2#3 0#1 rd rs1 rs2 0
  | .addSat rd rs1 rs2 => encodeR 0x30#8 3#3 0#1 rd rs1 rs2 0
  | .add rd rs1 rs2 => encodeR 0x30#8 4#3 0#1 rd rs1 rs2 0
  | .addWS rd rs1 rs2 => encodeR 0x30#8 0#3 1#1 rd rs1 rs2 0
  | .addCS rd rs1 rs2 => encodeR 0x30#8 1#3 1#1 rd rs1 rs2 0
  | .addOS rd rs1 rs2 => encodeR 0x30#8 2#3 1#1 rd rs1 rs2 0
  | .addSatS rd rs1 rs2 => encodeR 0x30#8 3#3 1#1 rd rs1 rs2 0
  | .addS rd rs1 rs2 => encodeR 0x30#8 4#3 1#1 rd rs1 rs2 0
  | .subW rd rs1 rs2 => encodeR 0x31#8 0#3 0#1 rd rs1 rs2 0
  | .subC rd rs1 rs2 => encodeR 0x31#8 1#3 0#1 rd rs1 rs2 0
  | .subO rd rs1 rs2 => encodeR 0x31#8 2#3 0#1 rd rs1 rs2 0
  | .subSat rd rs1 rs2 => encodeR 0x31#8 3#3 0#1 rd rs1 rs2 0
  | .sub rd rs1 rs2 => encodeR 0x31#8 4#3 0#1 rd rs1 rs2 0
  | .subWS rd rs1 rs2 => encodeR 0x31#8 0#3 1#1 rd rs1 rs2 0
  | .subCS rd rs1 rs2 => encodeR 0x31#8 1#3 1#1 rd rs1 rs2 0
  | .subOS rd rs1 rs2 => encodeR 0x31#8 2#3 1#1 rd rs1 rs2 0
  | .subSatS rd rs1 rs2 => encodeR 0x31#8 3#3 1#1 rd rs1 rs2 0
  | .subS rd rs1 rs2 => encodeR 0x31#8 4#3 1#1 rd rs1 rs2 0
  | .mulW rd rs1 rs2 => encodeR 0x32#8 0#3 0#1 rd rs1 rs2 0
  | .mulC rd rs1 rs2 => encodeR 0x32#8 1#3 0#1 rd rs1 rs2 0
  | .mulO rd rs1 rs2 => encodeR 0x32#8 2#3 0#1 rd rs1 rs2 0
  | .mulSat rd rs1 rs2 => encodeR 0x32#8 3#3 0#1 rd rs1 rs2 0
  | .mul rd rs1 rs2 => encodeR 0x32#8 4#3 0#1 rd rs1 rs2 0
  | .mulWS rd rs1 rs2 => encodeR 0x32#8 0#3 1#1 rd rs1 rs2 0
  | .mulCS rd rs1 rs2 => encodeR 0x32#8 1#3 1#1 rd rs1 rs2 0
  | .mulOS rd rs1 rs2 => encodeR 0x32#8 2#3 1#1 rd rs1 rs2 0
  | .mulSatS rd rs1 rs2 => encodeR 0x32#8 3#3 1#1 rd rs1 rs2 0
  | .mulS rd rs1 rs2 => encodeR 0x32#8 4#3 1#1 rd rs1 rs2 0
  | .divW rd rs1 rs2 => encodeR 0x33#8 0#3 0#1 rd rs1 rs2 0
  | .divC rd rs1 rs2 => encodeR 0x33#8 1#3 0#1 rd rs1 rs2 0
  | .divO rd rs1 rs2 => encodeR 0x33#8 2#3 0#1 rd rs1 rs2 0
  | .divSat rd rs1 rs2 => encodeR 0x33#8 3#3 0#1 rd rs1 rs2 0
  | .div rd rs1 rs2 => encodeR 0x33#8 4#3 0#1 rd rs1 rs2 0
  | .divWS rd rs1 rs2 => encodeR 0x33#8 0#3 1#1 rd rs1 rs2 0
  | .divCS rd rs1 rs2 => encodeR 0x33#8 1#3 1#1 rd rs1 rs2 0
  | .divOS rd rs1 rs2 => encodeR 0x33#8 2#3 1#1 rd rs1 rs2 0
  | .divSatS rd rs1 rs2 => encodeR 0x33#8 3#3 1#1 rd rs1 rs2 0
  | .divS rd rs1 rs2 => encodeR 0x33#8 4#3 1#1 rd rs1 rs2 0
  | .remW rd rs1 rs2 => encodeR 0x34#8 0#3 0#1 rd rs1 rs2 0
  | .remC rd rs1 rs2 => encodeR 0x34#8 1#3 0#1 rd rs1 rs2 0
  | .remO rd rs1 rs2 => encodeR 0x34#8 2#3 0#1 rd rs1 rs2 0
  | .rem rd rs1 rs2 => encodeR 0x34#8 4#3 0#1 rd rs1 rs2 0
  | .remWS rd rs1 rs2 => encodeR 0x34#8 0#3 1#1 rd rs1 rs2 0
  | .remCS rd rs1 rs2 => encodeR 0x34#8 1#3 1#1 rd rs1 rs2 0
  | .remOS rd rs1 rs2 => encodeR 0x34#8 2#3 1#1 rd rs1 rs2 0
  | .remS rd rs1 rs2 => encodeR 0x34#8 4#3 1#1 rd rs1 rs2 0
  | .diveW rd rs1 rs2 => encodeR 0x35#8 0#3 0#1 rd rs1 rs2 0
  | .diveC rd rs1 rs2 => encodeR 0x35#8 1#3 0#1 rd rs1 rs2 0
  | .diveO rd rs1 rs2 => encodeR 0x35#8 2#3 0#1 rd rs1 rs2 0
  | .diveSat rd rs1 rs2 => encodeR 0x35#8 3#3 0#1 rd rs1 rs2 0
  | .dive rd rs1 rs2 => encodeR 0x35#8 4#3 0#1 rd rs1 rs2 0
  | .diveWS rd rs1 rs2 => encodeR 0x35#8 0#3 1#1 rd rs1 rs2 0
  | .diveCS rd rs1 rs2 => encodeR 0x35#8 1#3 1#1 rd rs1 rs2 0
  | .diveOS rd rs1 rs2 => encodeR 0x35#8 2#3 1#1 rd rs1 rs2 0
  | .diveSatS rd rs1 rs2 => encodeR 0x35#8 3#3 1#1 rd rs1 rs2 0
  | .diveS rd rs1 rs2 => encodeR 0x35#8 4#3 1#1 rd rs1 rs2 0
  | .remeW rd rs1 rs2 => encodeR 0x36#8 0#3 0#1 rd rs1 rs2 0
  | .remeC rd rs1 rs2 => encodeR 0x36#8 1#3 0#1 rd rs1 rs2 0
  | .remeO rd rs1 rs2 => encodeR 0x36#8 2#3 0#1 rd rs1 rs2 0
  | .reme rd rs1 rs2 => encodeR 0x36#8 4#3 0#1 rd rs1 rs2 0
  | .remeWS rd rs1 rs2 => encodeR 0x36#8 0#3 1#1 rd rs1 rs2 0
  | .remeCS rd rs1 rs2 => encodeR 0x36#8 1#3 1#1 rd rs1 rs2 0
  | .remeOS rd rs1 rs2 => encodeR 0x36#8 2#3 1#1 rd rs1 rs2 0
  | .remeS rd rs1 rs2 => encodeR 0x36#8 4#3 1#1 rd rs1 rs2 0
  | .gcd rd rs1 rs2 => encodeR 0x37#8 0#3 0#1 rd rs1 rs2 0
  | .log2C xr rs1 => encodeR 0x38#8 1#3 0#1 0 rs1 0 xr
  | .log2 xr rs1 => encodeR 0x38#8 4#3 0#1 0 rs1 0 xr
  | .npotW rd rs1 => encodeR 0x39#8 0#3 0#1 rd rs1 0 0
  | .npotC rd rs1 => encodeR 0x39#8 1#3 0#1 rd rs1 0 0
  | .npotO rd rs1 => encodeR 0x39#8 2#3 0#1 rd rs1 0 0
  | .npot rd rs1 => encodeR 0x39#8 4#3 0#1 rd rs1 0 0
  | .negW rd rs1 => encodeR 0x40#8 0#3 0#1 rd rs1 0 0
  | .negWS rd rs1 => encodeR 0x40#8 0#3 1#1 rd rs1 0 0
  | .negCS rd rs1 => encodeR 0x40#8 1#3 1#1 rd rs1 0 0
  | .negOS rd rs1 => encodeR 0x40#8 2#3 1#1 rd rs1 0 0
  | .negSatS rd rs1 => encodeR 0x40#8 3#3 1#1 rd rs1 0 0
  | .negS rd rs1 => encodeR 0x40#8 4#3 1#1 rd rs1 0 0
  | .absWS rd rs1 => encodeR 0x41#8 0#3 1#1 rd rs1 0 0
  | .absCS rd rs1 => encodeR 0x41#8 1#3 1#1 rd rs1 0 0
  | .absOS rd rs1 => encodeR 0x41#8 2#3 1#1 rd rs1 0 0
  | .absSatS rd rs1 => encodeR 0x41#8 3#3 1#1 rd rs1 0 0
  | .absS rd rs1 => encodeR 0x41#8 4#3 1#1 rd rs1 0 0

/-- The instruction the decoder reads from a table word: bit 0 of `w` is the least significant bit of the
command word (R54), and every bit at or above `nbits` is 0. -/
def decodeTableWord (nbits w : Nat) : Option Instr :=
  match decode (BitVec.ofNat 32 (w % 2 ^ nbits)) with
  | .ok i => some i
  | .error _ => none

end Sys2Proof
end

