-- ==== Sys2Proof/Machine/Digits.lean ====
section
/-! DEFINITION. One digit and the digits of a value: the per-digit primitives (`44_bit_count.md` R190),
access to digits and bits (`00_scope.md` section 6), conversion between numbers and digit arrays, and the
named values (R13). -/

namespace Sys2Proof.Machine

/-! ### One digit -/

/-- The bits of a digit, bit 0 first. -/
def digitBits {w : Nat} (d : BitVec w) : List Bool := (List.range w).map d.getLsbD

/-- The number of bits at the head of a list that equal `b`. -/
def runOf (b : Bool) (bits : List Bool) : Nat := (bits.takeWhile (· == b)).length

/-- `clz_W(d)`: consecutive 0 bits from bit `W-1` down; `W` when `d = 0` (R190). -/
def clzDigit {w : Nat} (d : BitVec w) : Nat := runOf false (digitBits d).reverse

/-- `ctz_W(d)`: consecutive 0 bits from bit 0 up; `W` when `d = 0` (R190). -/
def ctzDigit {w : Nat} (d : BitVec w) : Nat := runOf false (digitBits d)

/-- `clo_W(d) = clz_W(~d)` (R190). -/
def cloDigit {w : Nat} (d : BitVec w) : Nat := clzDigit (~~~d)

/-- `cto_W(d) = ctz_W(~d)` (R190). -/
def ctoDigit {w : Nat} (d : BitVec w) : Nat := ctzDigit (~~~d)

/-- `popc_W(d)`: the number of 1 bits (R190). -/
def popDigit {w : Nat} (d : BitVec w) : Nat := (digitBits d).count true

/-- The number whose binary digits are the given bits, bit 0 first. -/
def natOfBits (bits : List Bool) : Nat :=
  match bits with
  | [] => 0
  | b :: bs => b.toNat + 2 * natOfBits bs

/-- `brev_W(d)`: bit `k` goes to bit `W - 1 - k` (R190). -/
def brevDigit {w : Nat} (d : BitVec w) : BitVec w := BitVec.ofNat w (natOfBits (digitBits d).reverse)

/-- `bswap_W(d)`: byte `k` goes to byte `W/8 - 1 - k`; bit `k` of the result is bit `k mod 8` of byte
`W/8 - 1 - k div 8` of `d` (R190). -/
def bswapDigit {w : Nat} (d : BitVec w) : BitVec w :=
  BitVec.ofNat w
    (natOfBits ((List.range w).map fun k => d.getLsbD (8 * (w / 8 - 1 - k / 8) + k % 8)))

/-! ### Digits of a value -/

/-- `a[i]`, digit `i` of a value; an index of `N` or more reads 0, and every rule that can meet one says
so itself. -/
def digitAt {w n : Nat} (a : Value w n) (i : Nat) : BitVec w := a.digits.getD i 0

/-- The value whose digit `i` is `f i`. -/
def valueOfFn {w : Nat} (n : Nat) (f : Nat → BitVec w) : Value w n :=
  ⟨(List.range n).map f, by simp⟩

/-- The value with digit `i` replaced (R122); the other digits are unchanged. -/
def putDigit {w n : Nat} (a : Value w n) (i : Nat) (d : BitVec w) : Value w n :=
  ⟨a.digits.set i d, by simp [a.length_digits]⟩

/-- `bitof(a, k)`: bit `k & (W-1)` of digit `k >> LOGW` (`00_scope.md` section 6). -/
def bitOf {w n : Nat} (a : Value w n) (k : Nat) : Bool := (digitAt a (k / w)).getLsbD (k % w)

/-- `dig(v)`: digit `i` is `(v >> (W*i)) & (2^W - 1)`. -/
def dig (w n : Nat) (v : Nat) : Value w n := valueOfFn n fun i => BitVec.ofNat w (v >>> (w * i))

/-- `sdig(s) = dig(s mod 2^BITS)`. -/
def sdig (w n : Nat) (s : Int) : Value w n := dig w n (s % 2 ^ (n * w)).toNat

/-- `sign(a) = a[N-1][W-1]` (R12). -/
def sign {w n : Nat} (a : Value w n) : Bool := (digitAt a (n - 1)).getLsbD (w - 1)

/-- `sval(a) = val(a) - 2^BITS * sign(a)` (R12). -/
def sval {w n : Nat} (a : Value w n) : Int := (a.val : Int) - 2 ^ (n * w) * (sign a).toNat

/-! ### Named values (R13) -/

/-- `ZERO`: every digit 0. -/
def zeroV (w n : Nat) : Value w n := .replicate n 0

/-- `ONE`: digit 0 is 1, the others 0. -/
def oneV (w n : Nat) : Value w n := valueOfFn n fun i => if i = 0 then 1 else 0

/-- `UMAX`, and `MINUS_ONE` under the signed reading: every digit `2^W - 1`. -/
def umaxV (w n : Nat) : Value w n := .replicate n (BitVec.allOnes w)

/-- `SMIN`: the top digit is `2^(W-1)`, the others 0. -/
def sminV (w n : Nat) : Value w n :=
  valueOfFn n fun i => if i = n - 1 then BitVec.ofNat w (2 ^ (w - 1)) else 0

/-- `SMAX`: the top digit is `2^(W-1) - 1`, the others `2^W - 1`. -/
def smaxV (w n : Nat) : Value w n :=
  valueOfFn n fun i => if i = n - 1 then BitVec.ofNat w (2 ^ (w - 1) - 1) else BitVec.allOnes w

end Sys2Proof.Machine
end

