-- ==== Sys2Proof/Machine/Datapath.lean ====
section
/-! DEFINITION. The datapath functions the commands are built from, each the rendering of the spec's own
pseudocode over `N` digits of `W` bits (files 42 to 49). They are pure functions of digit arrays: the
working storage of the datapaths (R38) is local to them, and every result is computed from the unmodified
sources (R27, R345). -/

namespace Sys2Proof.Machine

variable {w n : Nat}

/-! ### Comparison and tests (`42_compare_test.md`) -/

/-- `EqN(a, b)`: digit-wise equality across all `N` positions (R140). -/
def eqN (a b : Value w n) : Bool := (List.range n).all fun i => digitAt a i == digitAt b i

/-- The scan of `CmpN` over digits given most significant first (R141). -/
def cmpScan (as bs : List (BitVec w)) : Ordering :=
  match as, bs with
  | a :: as, b :: bs =>
    if a.toNat < b.toNat then .lt else if b.toNat < a.toNat then .gt else cmpScan as bs
  | _, _ => .eq

/-- `CmpN(a, b)`: from the most significant digit to the least, stopping at the first difference (R141). -/
def cmpN (a b : Value w n) : Ordering := cmpScan a.digits.reverse b.digits.reverse

/-- The signed comparison: differing signs decide, else the patterns compare (R143). -/
def cmpSignedN (a b : Value w n) : Ordering :=
  if sign a != sign b then (if sign a then .lt else .gt) else cmpN a b

/-- The all-digits scan of `ISZ` (R145). -/
def isZeroN (a : Value w n) : Bool := (List.range n).all fun i => digitAt a i == 0#w

/-- The scan of `ISONE`: digit 0 is 1 and every other digit is 0 (R146). -/
def isOneN (a : Value w n) : Bool :=
  (List.range n).all fun i => digitAt a i == (if i = 0 then 1#w else 0#w)

/-- The power-of-two test: exactly one digit is not 0, and no digit has two bits set (R147). -/
def isPow2N (a : Value w n) : Bool :=
  a.digits.countP (fun d => d != 0#w) == 1 && a.digits.all fun d => d == 0#w || (d &&& (d - 1#w)) == 0#w

/-! ### The counter (`44_bit_count.md`) -/

/-- The scan of a leading or trailing count: a digit that equals `full` adds `W` and the scan goes on; the
first other digit adds its own count and ends it (R180, R181, R184, R185). -/
def countScan (full : BitVec w) (part : BitVec w → Nat) (ds : List (BitVec w)) : Nat :=
  match ds with
  | [] => 0
  | d :: ds => if d = full then w + countScan full part ds else part d

/-- `ClzN(a)` (R180). -/
def clzN (a : Value w n) : Nat := countScan 0 clzDigit a.digits.reverse

/-- `CtzN(a)` (R181). -/
def ctzN (a : Value w n) : Nat := countScan 0 ctzDigit a.digits

/-- The count of `CLO` (R184). -/
def cloN (a : Value w n) : Nat := countScan (BitVec.allOnes w) cloDigit a.digits.reverse

/-- The count of `CTO` (R185). -/
def ctoN (a : Value w n) : Nat := countScan (BitVec.allOnes w) ctoDigit a.digits

/-- `Cnt1N(a)`: the sum of the digits' population counts (R186). -/
def cnt1N (a : Value w n) : Nat := (a.digits.map popDigit).sum

/-- `bits()`: the total width minus the leading zeros (R149). -/
def bitLenN (a : Value w n) : Nat := n * w - clzN a

/-- `Log2N(a)` for a value that is not zero (R262). -/
def log2N (a : Value w n) : Nat := n * w - 1 - clzN a

/-! ### Reversal and complement (`44_bit_count.md`) -/

/-- `SWAPB`: digit order reversed, each digit byte-swapped (R192). -/
def swapBytesN (a : Value w n) : Value w n :=
  valueOfFn n fun i => bswapDigit (digitAt a (n - 1 - i))

/-- `REVB`: digit order reversed, each digit bit-reversed (R193). -/
def reverseBitsN (a : Value w n) : Value w n :=
  valueOfFn n fun i => brevDigit (digitAt a (n - 1 - i))

/-- `NotN(a)`: every digit complemented (R194). -/
def notN (a : Value w n) : Value w n := valueOfFn n fun i => ~~~digitAt a i

/-! ### Adder and subtractor (`45_add_sub.md`) -/

/-- The ripple-carry chain over digits, least significant first: `t = a[i] + b[i] + c`, the low `W` bits
are the result digit and bit `W` is the carry on (R200, R348). -/
def addChain (as bs : List (BitVec w)) (c : Bool) : List (BitVec w) × Bool :=
  match as with
  | [] => ([], c)
  | a :: as =>
    let t := a.toNat + (bs.headD 0).toNat + c.toNat
    let r := addChain as bs.tail (t.testBit w)
    (BitVec.ofNat w t :: r.1, r.2)

/-- The chain gives one digit for each digit of its first operand. -/
theorem addChain_length (as bs : List (BitVec w)) (c : Bool) :
    (addChain as bs c).1.length = as.length := by
  induction as generalizing bs c with
  | nil => rfl
  | cons a as ih => simp [addChain, ih]

/-- `AddN(a, b, cin)`: the sum and the carry out of digit `N-1` (R200). -/
def addN (a b : Value w n) (cin : Bool) : Value w n × Bool :=
  let r := addChain a.digits b.digits cin
  (⟨r.1, (addChain_length _ _ _).trans a.length_digits⟩, r.2)

/-- The ripple-borrow chain over digits, least significant first: when `a[i] - b[i] - bw` is negative, the
digit is that plus `2^W` and a borrow goes on (R201). -/
def subChain (as bs : List (BitVec w)) (bw : Bool) : List (BitVec w) × Bool :=
  match as with
  | [] => ([], bw)
  | a :: as =>
    let t : Int := a.toNat - (bs.headD 0).toNat - bw.toNat
    let r := subChain as bs.tail (decide (t < 0))
    (BitVec.ofInt w (if t < 0 then t + 2 ^ w else t) :: r.1, r.2)

/-- The chain gives one digit for each digit of its first operand. -/
theorem subChain_length (as bs : List (BitVec w)) (bw : Bool) :
    (subChain as bs bw).1.length = as.length := by
  induction as generalizing bs bw with
  | nil => rfl
  | cons a as ih => simp [subChain, ih]

/-- `SubN(a, b)`: the difference and the borrow out of digit `N-1` (R201). -/
def subN (a b : Value w n) : Value w n × Bool :=
  let r := subChain a.digits b.digits false
  (⟨r.1, (subChain_length _ _ _).trans a.length_digits⟩, r.2)

/-! ### Two's-complement layer (`49_twos_complement.md`, `46_multiply.md`) -/

/-- `NegN(a)`: bitwise complement plus one, the carry dropped (R281). -/
def negN (a : Value w n) : Value w n := (addN (notN a) (oneV w n) false).1

/-- `UAbs(a)`: the magnitude of a signed value, read as unsigned (R223). -/
def uabs (a : Value w n) : Value w n := if sign a then negN a else a

/-! ### Schoolbook multiplier (`46_multiply.md`) -/

/-- One row of the multiplier, the inner loop of R220: `a` times the digits of `b`, accumulated into the
digits of the result from index `i` up. `t` is the double-width accumulator; its low half is written and
its high half is carried. The loop ends with the result digits, so only the pairs with `i + j < N` are
accumulated. -/
def mulRow (a : BitVec w) (bs rs : List (BitVec w)) (carry : BitVec w) : List (BitVec w) × BitVec w :=
  match rs with
  | [] => ([], carry)
  | r :: rs =>
    let t := a.toNat * (bs.headD 0).toNat + carry.toNat + r.toNat
    let rest := mulRow a bs.tail rs (BitVec.ofNat w (t / 2 ^ w))
    (BitVec.ofNat w t :: rest.1, rest.2)

/-- The rows of the multiplier, the outer loop of R220. `rs` holds the result digits from index `i` up;
digit `i` is final after row `i`. Overflow is flagged by a row carry that is not zero, which would land
at digit `N`, and by a dropped pair (`i + j >= N`) whose digits are both not zero. -/
def mulRows (as bs rs : List (BitVec w)) (ovf : Bool) : List (BitVec w) × Bool :=
  match as, rs with
  | a :: as, r :: rs =>
    let row := mulRow a bs (r :: rs) 0
    let dropped := a != 0#w && (bs.drop (rs.length + 1)).any fun b => b != 0#w
    let rest := mulRows as bs row.1.tail (ovf || row.2 != 0#w || dropped)
    (row.1.headD 0 :: rest.1, rest.2)
  | _, rs => (rs, ovf)

/-- A row gives one digit for each result digit it is given. -/
theorem mulRow_length (a : BitVec w) (bs rs : List (BitVec w)) (carry : BitVec w) :
    (mulRow a bs rs carry).1.length = rs.length := by
  induction rs generalizing bs carry with
  | nil => rfl
  | cons r rs ih => simp [mulRow, ih]

/-- The rows give one digit for each result digit they are given. -/
theorem mulRows_length (as bs rs : List (BitVec w)) (ovf : Bool) :
    (mulRows as bs rs ovf).1.length = rs.length := by
  induction as generalizing rs ovf with
  | nil => simp [mulRows]
  | cons a as ih =>
    cases rs with
    | nil => simp [mulRows]
    | cons r rs => simp [mulRows, ih, mulRow_length]

/-- `MulN(a, b)`: the low `N` digits of the product and whether anything was dropped (R220). -/
def mulN (a b : Value w n) : Value w n × Bool :=
  let r := mulRows a.digits b.digits (List.replicate n 0) false
  (⟨r.1, (mulRows_length _ _ _ _).trans List.length_replicate⟩, r.2)

/-! ### Divider (`47_divide.md`) -/

/-- The loop of the divider for the `k` dividend bits `k-1` down to 0: shift the running remainder left,
pull in the next bit, and subtract the divisor where it fits. The quotient is built by shifting in one bit
a step, which sets bit `k` of it as R240 says (log 14). -/
def divLoop (a : Value w n) (d : Nat) (k q rem : Nat) : Nat × Nat :=
  match k with
  | 0 => (q, rem)
  | k + 1 =>
    let shifted := 2 * rem + (bitOf a k).toNat
    if d ≤ shifted then divLoop a d k (2 * q + 1) (shifted - d) else divLoop a d k (2 * q) shifted

/-- `DivRemN(a, d)` for a divisor that is not zero: quotient and remainder (R240). -/
def divRemN (a d : Value w n) : Value w n × Value w n :=
  let r := divLoop a d.val (n * w) 0 0
  (dig w n r.1, dig w n r.2)

/-! ### Barrel shifter (`43_shift_rotate.md`) -/

/-- `ShlN(a, e)` for `e < BITS`: a move by `e div W` digits and a shift by `e mod W` bits whose carry is
the top bits of the next lower digit; with no sub-digit shift the digit is taken as it is (R160, R161,
R342). -/
def shlN (a : Value w n) (e : Nat) : Value w n :=
  let ds := e / w
  let bs := e % w
  valueOfFn n fun i =>
    let lo := if ds ≤ i then digitAt a (i - ds) else 0
    let lo1 := if ds + 1 ≤ i then digitAt a (i - ds - 1) else 0
    if bs = 0 then lo else (lo <<< bs) ||| (lo1 >>> (w - bs))

/-- `ShrN(a, e, fill)` for `e < BITS`: as `shlN` towards bit 0, with a digit of copies of `fill` above the
top (R160, R162, R342). -/
def shrN (a : Value w n) (e : Nat) (fill : Bool) : Value w n :=
  let ds := e / w
  let bs := e % w
  let f := if fill then BitVec.allOnes w else 0
  valueOfFn n fun i =>
    let hi := if i + ds < n then digitAt a (i + ds) else f
    let hi1 := if i + ds + 1 < n then digitAt a (i + ds + 1) else f
    if bs = 0 then hi else (hi >>> bs) ||| (hi1 <<< (w - bs))

/-- `RotlN(a, e)` for `e < BITS`: as `shlN` with digit indices taken modulo `N` (R167). -/
def rotlN (a : Value w n) (e : Nat) : Value w n :=
  let ds := e / w
  let bs := e % w
  valueOfFn n fun i =>
    let lo := digitAt a ((i + n - ds) % n)
    let lo1 := digitAt a ((i + n + n - ds - 1) % n)
    if bs = 0 then lo else (lo <<< bs) ||| (lo1 >>> (w - bs))

/-- The rotate amount: `X[xr] mod BITS`, for every `BITS` (R168). -/
def rotateAmount (w n : Nat) (e : Nat) : Nat := e % (n * w)

/-- The right rotate, the inverse of the left one (R169). -/
def rotrN (a : Value w n) (e : Nat) : Value w n := rotlN a ((n * w - e) % (n * w))

/-! ### GCD and next power of two (`48_gcd_log_npot.md`) -/

/-- The loop of `GcdN` on two odd operands: subtract the smaller from the larger and strip the new
trailing zeros, until the difference is zero. `fuel` bounds the iterations (R260; log 14). -/
def gcdLoop (fuel : Nat) (a b : Value w n) : Value w n :=
  match fuel with
  | 0 => a
  | fuel + 1 =>
    let lo := if cmpN a b = .gt then b else a
    let hi := if cmpN a b = .gt then a else b
    let d := (subN hi lo).1
    if isZeroN d then lo else gcdLoop fuel lo (shrN d (ctzN d) false)

/-- `GcdN(a, b)`: binary GCD, at most `2 * BITS` iterations (R260). -/
def gcdN (a b : Value w n) : Value w n :=
  if isZeroN a then b
  else if isZeroN b then a
  else
    let ta := ctzN a
    let tb := ctzN b
    shlN (gcdLoop (2 * (n * w)) (shrN a ta false) (shrN b tb false)) (min ta tb)

/-- `NpotN(a)`: the least power of two at or above the value, reduced, and whether it exceeded the width
(R264, as `90_conflicts.md` C3 resolves it). -/
def npotN (a : Value w n) : Value w n × Bool :=
  if isZeroN a then (oneV w n, false)
  else if isPow2N a then (a, false)
  else
    let k := n * w - clzN a
    if k = n * w then (zeroV w n, true)
    else (valueOfFn n fun i => if i = k / w then BitVec.ofNat w (2 ^ (k % w)) else 0, false)

end Sys2Proof.Machine
end

