-- ==== Sys2Proof/Config.lean ====
section
/-! DEFINITION. What an instance of the MDAU fixes (`W`, `N`, `SHIFT_WRAP`; `00_scope.md` R5 to R10),
the values the model names where the spec gives none, and the free values of a reset. -/

namespace Sys2Proof

/-- `SHIFT_WRAP` (R9): how a plain shift amount of `BITS` or more is reduced by a variant that must
still deliver a value. -/
inductive ShiftWrap where
  /-- `e mod BITS`, the spec's default. -/
  | mod
  /-- `e & (BITS - 1)`. -/
  | mask
deriving DecidableEq, Repr

/-- The parameters of one instance, constant for a machine. The proof fields are the spec's limits on
an instance: a parameter set outside them cannot be built (`93_implementation_defined.md` I4, I7;
log 4). -/
structure Instance where
  /-- `LOGW = log2(W)`: the digit width is a power of two (R5). -/
  logW : Nat
  /-- `N`, the digit count (R6). -/
  n : Nat
  /-- `SHIFT_WRAP` (R9). -/
  shiftWrap : ShiftWrap := .mod
  /-- `W >= 8` (R5). -/
  width_ok : 3 ≤ logW := by decide
  /-- `N >= 1` (R6). -/
  count_ok : 1 ≤ n := by decide
  /-- `N <= 65536`: digit indices are 16 bits (R10). -/
  index_ok : n ≤ 65536 := by decide
  /-- `BITS <= 2^32 - 1`: every count fits an exponent (R7). -/
  bits_ok : n * 2 ^ logW < 2 ^ 32 := by decide
deriving DecidableEq, Repr

/-- `W`, the digit width in bits (R5). -/
abbrev Instance.w (i : Instance) : Nat := 2 ^ i.logW

/-- `BITS = N * W` (R6). -/
abbrev Instance.bits (i : Instance) : Nat := i.n * i.w

/-- The reference instance `MDAU-W64-N4` (R5, R6). -/
def Instance.reference : Instance := { logW := 6, n := 4 }

/-- DESIGN CHOICE (log 1, unsafe): every digit of `V0`..`V7` in `State.reset`. The spec leaves the
contents unspecified and asks that they not be taken as zero (R40). -/
def Config.powerOnDigit (w : Nat) : BitVec w := BitVec.ofNat w 0xA5A5A5A5A5A5A5A5

/-- DESIGN CHOICE (log 2, unsafe): `X0`..`X7` in `State.reset`. The spec leaves the contents
unspecified and asks that they not be taken as zero (R40). -/
def Config.powerOnExpo : Word := 165

/-- DESIGN CHOICE (log 5, unsafe): the level of the strap `cfg_checked` in `State.reset`. The spec
makes it a parameter of the initial state (R8, R331). -/
def Config.powerOnStrap : Bool := true

/-- Free value (log 3): what digit `idx` of value register `reg` holds after the reset numbered
`draw` (R40, R330). It has no body, so nothing can be proved of it. -/
opaque Config.resetDigit (w draw reg idx : Nat) : BitVec w

/-- Free value (log 3): what exponent register `reg` holds after the reset numbered `draw` (R40, R330). -/
opaque Config.resetExpo (draw reg : Nat) : Word

end Sys2Proof
end

