-- ==== Sys2Proof/Machine/State.lean ====
section
/-! DEFINITION. The state of the MDAU as plain data (`10_state.md`), the host's side of the port, why a
step can stop, and the machine after reset. -/

namespace Sys2Proof.Machine

/-- The overflow variants, the values of `VAR` (R76). -/
inductive Variant where
  /-- `VAR = 0`, letter W: the low-order result (R101). -/
  | wrapping
  /-- `VAR = 1`, letter C: an optional result (R102). -/
  | checked
  /-- `VAR = 2`, letter O: the low-order result and a flag (R103). -/
  | overflowing
  /-- `VAR = 3`, letter S: the nearest bound (R104). -/
  | saturating
  /-- `VAR = 4`, letter D: a fault in the checked build, wrapping in the release build (R105). -/
  | panicking
deriving DecidableEq, Repr

/-- The fault causes, complete (R301). They are recorded in the state; none of them stops the machine. -/
inductive Cause where
  | overflow
  | divZero
  | logZero
  | illegal
  | index
deriving DecidableEq, Repr

/-- The `status` of a response (R71). Code 3 is never returned and has no constructor. -/
inductive Status where
  /-- 0: the command executed. -/
  | ok
  /-- 1: this command raised a fault and wrote nothing but `FAULT` and `FCMD`. -/
  | fault
  /-- 2: a fault was active, and the command was not executed. -/
  | rejected
deriving DecidableEq, Repr

/-- A request of the command transaction, `(cmd, din_d, din_x)` (R70). -/
structure Request (w : Nat) where
  cmd : Word
  dinD : BitVec w
  dinX : Word
deriving DecidableEq, Repr

/-- A response of the command transaction, `(status, dout_d, dout_x)` (R70, R71). -/
structure Response (w : Nat) where
  status : Status
  doutD : BitVec w
  doutX : Word
deriving DecidableEq, Repr

/-- What the host can do to the unit (R353). Watching `fault` changes nothing and is no move. -/
inductive HostMove (w : Nat) where
  /-- Issue a transaction while the unit is idle. -/
  | command (req : Request w)
  /-- Assert and release `rst` (R330). -/
  | reset
  /-- Hold the strap `cfg_checked` at a level (R331). -/
  | strap (level : Bool)
deriving DecidableEq, Repr

/-- Why the machine stops with a fault: it never does. Every command terminates with a response and the
unit never hangs (R353); the faults of R301 are entered and the host goes on (R304). Safe: no constructor
can be raised. -/
inductive Fault where
deriving DecidableEq, Repr

/-- Why a step has no meaning. -/
inductive Refusal where
  /-- Raised by an arm of `exec` for a command without a meaning yet. No arm raises it. Safe. -/
  | notModelled (mnemonic : String)
deriving DecidableEq, Repr

/-- The state. The first group is the whole architectural state (R20); the second group is the model's
own: the transaction in progress, the host's moves and record, and the pin it drives. -/
structure State where
  /-- The instance: what `PARAM_W`, `PARAM_N` and `PARAM_BITS` read (R36), and `SHIFT_WRAP` (R9). No
  step changes it (log 4). -/
  inst : Instance
  /-- `V0`..`V7`, the value registers (R21). -/
  v : Vector (Value inst.w inst.n) 8
  /-- `X0`..`X7`, the exponent registers (R22). -/
  x : Vector Word 8
  /-- `FLAGS`, control register 0 (R23). -/
  flags : Word
  /-- `FAULT`, control register 1 (R25). -/
  fault : Word
  /-- `FCMD`, control register 2 (R26). -/
  fcmd : Word
  /-- `CFG`, control register 3 (R35). -/
  cfg : Word
  /-- The transaction being executed: the input of the step (R70, R312; log 7). -/
  request : Request inst.w
  /-- The host's moves still to come, the next one first (R353; log 6). -/
  inputs : List (HostMove inst.w)
  /-- The responses the host received, the newest first (R353; log 8). -/
  responses : List (Response inst.w)
  /-- The level the host holds `cfg_checked` at (R331; log 12). -/
  strap : Bool
  /-- How many resets have drawn register contents (R40; log 3). -/
  draws : Nat
deriving DecidableEq, Repr

/-- The `CFG` word with `CHECKED` at a level: bit 0, the rest zero (R35). -/
def cfgWord (checked : Bool) : Word := if checked then 1 else 0

/-- The state right after the reset that begins a run (R40, R330), for any instance, strap level and
register contents, with the host's moves to come. -/
def State.powerOn (inst : Instance) (checked : Bool) (v : Vector (Value inst.w inst.n) 8)
    (x : Vector Word 8) (inputs : List (HostMove inst.w)) : State where
  inst := inst
  v := v
  x := x
  flags := 0
  fault := 0
  fcmd := 0
  cfg := cfgWord checked
  request := ⟨0, 0, 0⟩
  inputs := inputs
  responses := []
  strap := checked
  draws := 0

/-- The machine after reset: the reference instance with the contents, strap level and parameters that
`Config` names (log 1, log 2, log 4, log 5), and no move of the host to come (log 6). -/
def State.reset : State :=
  .powerOn .reference Config.powerOnStrap
    (.replicate 8 (.replicate _ (Config.powerOnDigit _))) (.replicate 8 Config.powerOnExpo) []

end Sys2Proof.Machine
end

