-- ==== Sys2Proof/Machine/Flags.lean ====
section
/-! DEFINITION. The fields of `FLAGS`, `FAULT` and `CFG` (`10_state.md` R23, R25, R35): how each is read,
how each is written, and the codes they hold. -/

namespace Sys2Proof.Machine

/-- Write one bit of a word; every other bit keeps its value. -/
def putBit (i : Nat) (b : Bool) (w : Word) : Word :=
  if b then w ||| BitVec.twoPow 32 i else w &&& ~~~BitVec.twoPow 32 i

/-- `FLAGS.OVF`, bit 0. -/
def flagOvf (f : Word) : Bool := f.getLsbD 0

/-- `FLAGS.NONE`, bit 1. -/
def flagNone (f : Word) : Bool := f.getLsbD 1

/-- `FLAGS.T`, bit 2. -/
def flagT (f : Word) : Bool := f.getLsbD 2

/-- `FLAGS.ORD`, bits 4:3. -/
def flagOrd (f : Word) : BitVec 2 := f.extractLsb' 3 2

/-- `FLAGS.OVF <- b` (R103). -/
def putOvf (b : Bool) (f : Word) : Word := putBit 0 b f

/-- `FLAGS.NONE <- b` (R102). -/
def putNone (b : Bool) (f : Word) : Word := putBit 1 b f

/-- `FLAGS.T <- b` (R144 to R148, R150). -/
def putT (b : Bool) (f : Word) : Word := putBit 2 b f

/-- `FLAGS.ORD <- o` (R142). -/
def putOrd (o : BitVec 2) (f : Word) : Word := putBit 3 (o.getLsbD 0) (putBit 4 (o.getLsbD 1) f)

/-- The code of an ordering in `FLAGS.ORD`: 0 less, 1 equal, 2 greater (R23, R142). -/
def ordCode (o : Ordering) : BitVec 2 :=
  match o with
  | .lt => 0
  | .eq => 1
  | .gt => 2

/-- The code of a cause in `FAULT.CAUSE` (R301). -/
def causeCode (c : Cause) : BitVec 4 :=
  match c with
  | .overflow => 1
  | .divZero => 2
  | .logZero => 3
  | .illegal => 4
  | .index => 5

/-- `FAULT` with `ACTIVE = 1` and a cause; bits 3:1 and 31:8 zero (R25, R304). -/
def faultWord (c : Cause) : Word := (causeCode c).setWidth 32 <<< 4 ||| 1#32

/-- `FAULT.ACTIVE`, bit 0 (R25). -/
def faultActive (f : Word) : Bool := f.getLsbD 0

/-- `FAULT.CAUSE`, bits 7:4 (R25). -/
def faultCause (f : Word) : BitVec 4 := f.extractLsb' 4 4

/-- `CFG.CHECKED`, bit 0 (R35). -/
def cfgChecked (c : Word) : Bool := c.getLsbD 0

/-- The number the port carries for a status (R71). -/
def statusCode (s : Status) : BitVec 2 :=
  match s with
  | .ok => 0
  | .fault => 1
  | .rejected => 2

end Sys2Proof.Machine
end

