-- ==== Sys2Proof/Machine/Ops.lean ====
section
/-! DEFINITION. The named operations over the state: register access, the response, taking a fault and
returning from it, the delivery of a result under an overflow variant, division by zero, and reset. No
operation stops the machine: each gives a state. -/

namespace Sys2Proof.Machine

/-- The outcome of a step of this machine. -/
abbrev Result := Host.Outcome State Fault Refusal

/-! ### Registers (`10_state.md` R21, R22, R23) -/

/-- `V[r]`. -/
def State.reg (s : State) (r : Reg) : Value s.inst.w s.inst.n := s.v[r]

/-- `V[r] <- a`: all `N` digits. -/
def State.setReg (s : State) (r : Reg) (a : Value s.inst.w s.inst.n) : State :=
  { s with v := s.v.set r a }

/-- `X[r]`. -/
def State.expo (s : State) (r : Reg) : Word := s.x[r]

/-- `X[r] <- e`. -/
def State.setExpo (s : State) (r : Reg) (e : Word) : State := { s with x := s.x.set r e }

/-- A new `FLAGS` word; the callers make it with the field writes of `Flags.lean` (R24). -/
def State.setFlags (s : State) (f : Word) : State := { s with flags := f }

/-- `CFG.CHECKED` (R35). -/
def State.checked (s : State) : Bool := cfgChecked s.cfg

/-- `FAULT.ACTIVE`, and the output `fault`, which equals it at all times (R25, R37). -/
def State.faultOutput (s : State) : Bool := faultActive s.fault

/-! ### The response (`30_encoding.md` R71) -/

/-- Answer the transaction. -/
def State.respond (s : State) (r : Response s.inst.w) : State :=
  { s with responses := r :: s.responses }

/-- The command is complete and produces no data: `OK`, both data outputs 0. -/
def State.done (s : State) : State := s.respond ⟨.ok, 0, 0⟩

/-! ### Taking a fault and returning from it (`60_exceptions.md`) -/

/-- Fault entry, the meaning of `raise <Cause>` (R304): the cause and the command word are recorded, the
response is `(FAULT, 0, 0)`, and nothing else changes. `cmd` is that of the transaction in progress. -/
def State.raise (s : State) (c : Cause) : State :=
  State.respond { s with fault := faultWord c, fcmd := s.request.cmd } ⟨.fault, 0, 0⟩

/-- Return from a fault (R308, R128): `FAULT <- 0; FCMD <- 0`, nothing restored. -/
def State.clearFault (s : State) : State := { s with fault := 0, fcmd := 0 }

/-- The answer to a command that is not executed because a fault is active (R306). -/
def State.reject (s : State) : State := s.respond ⟨.rejected, 0, 0⟩

/-- The command words that execute while a fault is active: `RCS` (0x07) and `FCLR` (0x08), told by
`cmd[7:0]` alone (R306, R80). -/
def runsWhileFaulted (cmd : Word) : Bool := opField cmd == 0x07#8 || opField cmd == 0x08#8

/-! ### Delivery (`40_overflow_variants.md`) -/

/-- What a variant-capable operation hands to delivery (R100): the wrapped result, the overflow condition
and the saturation bound. Operations without a saturating variant leave the bound at `ZERO`, which no
variant of theirs reads (log 19). -/
structure Triple (w n : Nat) where
  wrapped : Value w n
  overflow : Bool
  bound : Value w n
deriving DecidableEq, Repr

/-- `Deliver(VAR, rd, w, o, s)` (R106; R101 to R105). -/
def State.deliver (s : State) (var : Variant) (rd : Reg) (t : Triple s.inst.w s.inst.n) : State :=
  match var with
  | .wrapping => (s.setReg rd t.wrapped).done
  | .checked =>
    if t.overflow then (s.setFlags (putNone true s.flags)).done
    else ((s.setReg rd t.wrapped).setFlags (putNone false s.flags)).done
  | .overflowing => ((s.setReg rd t.wrapped).setFlags (putOvf t.overflow s.flags)).done
  | .saturating => (s.setReg rd (if t.overflow then t.bound else t.wrapped)).done
  | .panicking =>
    if s.checked && t.overflow then s.raise .overflow else (s.setReg rd t.wrapped).done

/-- The outcome of a division by zero, by variant (R108): absent under C, `DivZero` under every other, in
both build modes. -/
def State.divideByZero (s : State) (var : Variant) : State :=
  match var with
  | .checked => (s.setFlags (putNone true s.flags)).done
  | .wrapping => s.raise .divZero
  | .overflowing => s.raise .divZero
  | .saturating => s.raise .divZero
  | .panicking => s.raise .divZero

/-- `DivZeroCheck(VAR, b)` and, for a divisor that is not zero, delivery (R242). -/
def State.deliverDivision (s : State) (var : Variant) (rd : Reg) (divisor : Value s.inst.w s.inst.n)
    (t : Triple s.inst.w s.inst.n) : State :=
  if isZeroN divisor then s.divideByZero var else s.deliver var rd t

/-! ### Reset (`70_reset_and_hazards.md`) -/

/-- `rst` asserted and released (R330, R331): control registers as at the start of a run, `CFG.CHECKED`
from the strap, the registers unspecified (free values, log 3). The host's own record is the host's. -/
def State.resetUnit (s : State) : State :=
  { s with
    v := .ofFn fun r => valueOfFn _ fun i => Config.resetDigit _ s.draws r i
    x := .ofFn fun r => Config.resetExpo s.draws r
    flags := 0
    fault := 0
    fcmd := 0
    cfg := cfgWord s.strap
    draws := s.draws + 1 }

end Sys2Proof.Machine
end

