-- ==== Sys2Proof/Machine/Operands.lean ====
section
/-! DEFINITION. The operand forms that are more than a register (`41_data_movement.md` R129): a digit of
a register named by an immediate index, a control register named by number, and the data-in values. -/

namespace Sys2Proof.Machine

/-- The data-in digit `din_d` of the transaction in progress (R70). -/
def State.dinDigit (s : State) : BitVec s.inst.w := s.request.dinD

/-- The data-in exponent `din_x` of the transaction in progress (R70). -/
def State.dinExpo (s : State) : Word := s.request.dinX

/-- A digit index that names a digit of this instance: `idx < N`, the index used as it stands (R55, R74). -/
def State.indexInRange (s : State) (idx : DigitIdx) : Bool := decide (idx.toNat < s.inst.n)

/-- `V[r][idx]` (R129). -/
def State.digit (s : State) (r : Reg) (idx : Nat) : BitVec s.inst.w := digitAt (s.reg r) idx

/-- `V[r][idx] <- d`: one digit is written and the other `N-1` are left as they were (R56, R122). -/
def State.setDigit (s : State) (r : Reg) (idx : Nat) (d : BitVec s.inst.w) : State :=
  s.setReg r (putDigit (s.reg r) idx d)

/-- `CSR[idx]`, the control registers by number; none for a number above 6 (R29, R36). -/
def State.csr (s : State) (idx : DigitIdx) : Option Word :=
  match idx.toNat with
  | 0 => some s.flags
  | 1 => some s.fault
  | 2 => some s.fcmd
  | 3 => some s.cfg
  | 4 => some (BitVec.ofNat 32 s.inst.w)
  | 5 => some (BitVec.ofNat 32 s.inst.n)
  | 6 => some (BitVec.ofNat 32 s.inst.bits)
  | _ => none

/-- The reduction of a plain shift amount (R163): the amount itself below `BITS`, else as `SHIFT_WRAP`
says (R9). -/
def reduceShift (i : Instance) (e : Nat) : Nat :=
  if e < i.bits then e
  else
    match i.shiftWrap with
    | .mod => e % i.bits
    | .mask => e &&& (i.bits - 1)

end Sys2Proof.Machine
end

