-- ==== Sys2Proof/Machine/AddSub.lean ====
section
/-! DEFINITION. The multi-digit adder and subtractor: `ADD` and `SUB`, both families, five variants
(`45_add_sub.md`). -/

namespace Sys2Proof.Machine

variable {w n : Nat}

/-- Unsigned `ADD` (R202): overflow is the carry out, the bound `UMAX`. -/
def addTriple (a b : Value w n) : Triple w n :=
  let r := addN a b false
  { wrapped := r.1, overflow := r.2, bound := umaxV w n }

/-- Unsigned `SUB` (R203): overflow is the borrow out, the bound `ZERO`. -/
def subTriple (a b : Value w n) : Triple w n :=
  let r := subN a b
  { wrapped := r.1, overflow := r.2, bound := zeroV w n }

/-- Signed `ADD` (R204): overflow when operands of one sign give a result of the other; the bound is on the
side of the operands' sign. -/
def addSignedTriple (a b : Value w n) : Triple w n :=
  let r := (addN a b false).1
  { wrapped := r
    overflow := sign a == sign b && sign r != sign a
    bound := if sign a then sminV w n else smaxV w n }

/-- Signed `SUB` (R205): overflow when operands of different signs give a result whose sign differs from
the minuend's; the bound is on the side of the minuend's sign. -/
def subSignedTriple (a b : Value w n) : Triple w n :=
  let r := (subN a b).1
  { wrapped := r
    overflow := sign a != sign b && sign r != sign a
    bound := if sign a then sminV w n else smaxV w n }

/-- `ADD.W`: unsigned sum, wrapping (R202, R101). -/
def execAddW (rd rs1 rs2 : Reg) (s : State) : Result :=
  .next (s.deliver .wrapping rd (addTriple (s.reg rs1) (s.reg rs2)))

/-- `ADD.C`: unsigned sum, checked (R202, R102). -/
def execAddC (rd rs1 rs2 : Reg) (s : State) : Result :=
  .next (s.deliver .checked rd (addTriple (s.reg rs1) (s.reg rs2)))

/-- `ADD.O`: unsigned sum, overflowing (R202, R103). -/
def execAddO (rd rs1 rs2 : Reg) (s : State) : Result :=
  .next (s.deliver .overflowing rd (addTriple (s.reg rs1) (s.reg rs2)))

/-- `ADD.SAT`: unsigned sum, saturating (R202, R104). -/
def execAddSat (rd rs1 rs2 : Reg) (s : State) : Result :=
  .next (s.deliver .saturating rd (addTriple (s.reg rs1) (s.reg rs2)))

/-- `ADD`: unsigned sum, default variant (R202, R105). -/
def execAdd (rd rs1 rs2 : Reg) (s : State) : Result :=
  .next (s.deliver .panicking rd (addTriple (s.reg rs1) (s.reg rs2)))

/-- `ADD.W.S`: signed sum, wrapping (R204, R101). -/
def execAddWS (rd rs1 rs2 : Reg) (s : State) : Result :=
  .next (s.deliver .wrapping rd (addSignedTriple (s.reg rs1) (s.reg rs2)))

/-- `ADD.C.S`: signed sum, checked (R204, R102). -/
def execAddCS (rd rs1 rs2 : Reg) (s : State) : Result :=
  .next (s.deliver .checked rd (addSignedTriple (s.reg rs1) (s.reg rs2)))

/-- `ADD.O.S`: signed sum, overflowing (R204, R103). -/
def execAddOS (rd rs1 rs2 : Reg) (s : State) : Result :=
  .next (s.deliver .overflowing rd (addSignedTriple (s.reg rs1) (s.reg rs2)))

/-- `ADD.SAT.S`: signed sum, saturating (R204, R104). -/
def execAddSatS (rd rs1 rs2 : Reg) (s : State) : Result :=
  .next (s.deliver .saturating rd (addSignedTriple (s.reg rs1) (s.reg rs2)))

/-- `ADD.S`: signed sum, default variant (R204, R105). -/
def execAddS (rd rs1 rs2 : Reg) (s : State) : Result :=
  .next (s.deliver .panicking rd (addSignedTriple (s.reg rs1) (s.reg rs2)))

/-- `SUB.W`: unsigned difference, wrapping (R203, R101). -/
def execSubW (rd rs1 rs2 : Reg) (s : State) : Result :=
  .next (s.deliver .wrapping rd (subTriple (s.reg rs1) (s.reg rs2)))

/-- `SUB.C`: unsigned difference, checked (R203, R102). -/
def execSubC (rd rs1 rs2 : Reg) (s : State) : Result :=
  .next (s.deliver .checked rd (subTriple (s.reg rs1) (s.reg rs2)))

/-- `SUB.O`: unsigned difference, overflowing (R203, R103). -/
def execSubO (rd rs1 rs2 : Reg) (s : State) : Result :=
  .next (s.deliver .overflowing rd (subTriple (s.reg rs1) (s.reg rs2)))

/-- `SUB.SAT`: unsigned difference, saturating (R203, R104). -/
def execSubSat (rd rs1 rs2 : Reg) (s : State) : Result :=
  .next (s.deliver .saturating rd (subTriple (s.reg rs1) (s.reg rs2)))

/-- `SUB`: unsigned difference, default variant (R203, R105). -/
def execSub (rd rs1 rs2 : Reg) (s : State) : Result :=
  .next (s.deliver .panicking rd (subTriple (s.reg rs1) (s.reg rs2)))

/-- `SUB.W.S`: signed difference, wrapping (R205, R101). -/
def execSubWS (rd rs1 rs2 : Reg) (s : State) : Result :=
  .next (s.deliver .wrapping rd (subSignedTriple (s.reg rs1) (s.reg rs2)))

/-- `SUB.C.S`: signed difference, checked (R205, R102). -/
def execSubCS (rd rs1 rs2 : Reg) (s : State) : Result :=
  .next (s.deliver .checked rd (subSignedTriple (s.reg rs1) (s.reg rs2)))

/-- `SUB.O.S`: signed difference, overflowing (R205, R103). -/
def execSubOS (rd rs1 rs2 : Reg) (s : State) : Result :=
  .next (s.deliver .overflowing rd (subSignedTriple (s.reg rs1) (s.reg rs2)))

/-- `SUB.SAT.S`: signed difference, saturating (R205, R104). -/
def execSubSatS (rd rs1 rs2 : Reg) (s : State) : Result :=
  .next (s.deliver .saturating rd (subSignedTriple (s.reg rs1) (s.reg rs2)))

/-- `SUB.S`: signed difference, default variant (R205, R105). -/
def execSubS (rd rs1 rs2 : Reg) (s : State) : Result :=
  .next (s.deliver .panicking rd (subSignedTriple (s.reg rs1) (s.reg rs2)))

end Sys2Proof.Machine
end

