-- ==== Sys2Proof/Machine/BitCount.lean ====
section
/-! DEFINITION. Bit counts, reversal and complement (`44_bit_count.md`). -/

namespace Sys2Proof.Machine

/-- A count command: the count goes to `X[xr]`; it is at most `BITS` and fits (R7, R347). -/
def State.deliverCount (s : State) (xr : Reg) (count : Nat) : State :=
  (s.setExpo xr (BitVec.ofNat 32 count)).done

/-- `CLZ`: leading zeros (R182). -/
def execClz (xr rs1 : Reg) (s : State) : Result := .next (s.deliverCount xr (clzN (s.reg rs1)))

/-- `CTZ`: trailing zeros (R183). -/
def execCtz (xr rs1 : Reg) (s : State) : Result := .next (s.deliverCount xr (ctzN (s.reg rs1)))

/-- `CLO`: leading ones (R184). -/
def execClo (xr rs1 : Reg) (s : State) : Result := .next (s.deliverCount xr (cloN (s.reg rs1)))

/-- `CTO`: trailing ones (R185). -/
def execCto (xr rs1 : Reg) (s : State) : Result := .next (s.deliverCount xr (ctoN (s.reg rs1)))

/-- `CNT1`: number of 1 bits (R187). -/
def execCnt1 (xr rs1 : Reg) (s : State) : Result := .next (s.deliverCount xr (cnt1N (s.reg rs1)))

/-- `CNT0`: number of 0 bits (R188). -/
def execCnt0 (xr rs1 : Reg) (s : State) : Result := .next (s.deliverCount xr (s.inst.bits - cnt1N (s.reg rs1)))

/-- `SWAPB`: bytes reversed (R192). -/
def execSwapb (rd rs1 : Reg) (s : State) : Result := .next (s.setReg rd (swapBytesN (s.reg rs1))).done

/-- `REVB`: bits reversed (R193). -/
def execRevb (rd rs1 : Reg) (s : State) : Result := .next (s.setReg rd (reverseBitsN (s.reg rs1))).done

/-- `NOT`: bitwise complement (R194). -/
def execNot (rd rs1 : Reg) (s : State) : Result := .next (s.setReg rd (notN (s.reg rs1))).done

end Sys2Proof.Machine
end

