-- ==== Sys2Proof/Machine/CompareTest.lean ====
section
/-! DEFINITION. Comparison and test commands (`42_compare_test.md`). -/

namespace Sys2Proof.Machine

/-- `FLAGS.ORD <- o`, the only effect of a comparison (R142). -/
def State.deliverOrder (s : State) (o : Ordering) : State :=
  (s.setFlags (putOrd (ordCode o) s.flags)).done

/-- `FLAGS.T <- b`, the only effect of a test (R144). -/
def State.deliverTest (s : State) (b : Bool) : State := (s.setFlags (putT b s.flags)).done

/-- `CMP` (R142). -/
def execCmp (rs1 rs2 : Reg) (s : State) : Result := .next (s.deliverOrder (cmpN (s.reg rs1) (s.reg rs2)))

/-- `CMP.S` (R143). -/
def execCmpS (rs1 rs2 : Reg) (s : State) : Result :=
  .next (s.deliverOrder (cmpSignedN (s.reg rs1) (s.reg rs2)))

/-- `EQ` (R144). -/
def execEq (rs1 rs2 : Reg) (s : State) : Result := .next (s.deliverTest (eqN (s.reg rs1) (s.reg rs2)))

/-- `ISZ` (R145). -/
def execIsz (rs1 : Reg) (s : State) : Result := .next (s.deliverTest (isZeroN (s.reg rs1)))

/-- `ISONE` (R146). -/
def execIsone (rs1 : Reg) (s : State) : Result := .next (s.deliverTest (isOneN (s.reg rs1)))

/-- `ISP2` (R147). -/
def execIsp2 (rs1 : Reg) (s : State) : Result := .next (s.deliverTest (isPow2N (s.reg rs1)))

/-- `ISNEG` (R148). -/
def execIsneg (rs1 : Reg) (s : State) : Result := .next (s.deliverTest (sign (s.reg rs1)))

/-- `BLEN` (R149). -/
def execBlen (xr rs1 : Reg) (s : State) : Result := .next (s.deliverCount xr (bitLenN (s.reg rs1)))

/-- `BIT`: the bit index is `X[xr]`; one of `BITS` or more raises `Index` (R150). -/
def execBit (rs1 xr : Reg) (s : State) : Result :=
  .next
    (if s.inst.bits ≤ (s.expo xr).toNat then s.raise .index
    else s.deliverTest (bitOf (s.reg rs1) (s.expo xr).toNat))

end Sys2Proof.Machine
end

