-- ==== Sys2Proof/Machine/DataMovement.lean ====
section
/-! DEFINITION. Data movement and control commands (`41_data_movement.md`). -/

namespace Sys2Proof.Machine

/-- `NOP`: nothing but the response (R120). -/
def execNop (s : State) : Result := .next s.done

/-- `MOV`: all `N` digits of a register (R121). -/
def execMov (rd rs1 : Reg) (s : State) : Result := .next (s.setReg rd (s.reg rs1)).done

/-- `LDD`: one digit from `din_d`, or `Index` (R122). -/
def execLdd (r : Reg) (idx : DigitIdx) (s : State) : Result :=
  .next (if s.indexInRange idx then (s.setDigit r idx.toNat s.dinDigit).done else s.raise .index)

/-- `STD`: one digit to `dout_d`, or `Index` (R123). -/
def execStd (r : Reg) (idx : DigitIdx) (s : State) : Result :=
  .next (if s.indexInRange idx then s.respond ⟨.ok, s.digit r idx.toNat, 0⟩ else s.raise .index)

/-- `LDS`: digit 0 from `din_d`, every other digit 0 (R124). -/
def execLds (r : Reg) (s : State) : Result :=
  .next (s.setReg r (valueOfFn _ fun i => if i = 0 then s.dinDigit else 0)).done

/-- `LDX`: an exponent register from `din_x` (R125). -/
def execLdx (xr : Reg) (s : State) : Result := .next (s.setExpo xr s.dinExpo).done

/-- `STX`: an exponent register to `dout_x` (R126). -/
def execStx (xr : Reg) (s : State) : Result := .next (s.respond ⟨.ok, 0, s.expo xr⟩)

/-- `RCS`: a control register to `dout_x` (R127). A number above 6 has no encoding the decoder accepts
(R79) and raises `Illegal` here as it does there (log 18). -/
def execRcs (idx : DigitIdx) (s : State) : Result :=
  .next
    (match s.csr idx with
    | some c => s.respond ⟨.ok, 0, c⟩
    | none => s.raise .illegal)

/-- `FCLR`: return from a fault; with no fault active it has no effect (R128, R308). -/
def execFclr (s : State) : Result := .next s.clearFault.done

end Sys2Proof.Machine
end

