-- ==== Sys2Proof/Machine/Divide.lean ====
section
/-! DEFINITION. The divider and remainder engine: `DIV`, `REM`, `DIVE`, `REME`, both families
(`47_divide.md`). Each triple is read only for a divisor that is not zero. -/

namespace Sys2Proof.Machine

variable {w n : Nat}

/-- Unsigned `DIV` and `DIVE` (R243, R245): the quotient; it never overflows. -/
def quotTriple (a b : Value w n) : Triple w n :=
  { wrapped := (divRemN a b).1, overflow := false, bound := zeroV w n }

/-- Unsigned `REM` and `REME` (R244, R246): the remainder; it never overflows. -/
def remTriple (a b : Value w n) : Triple w n :=
  { wrapped := (divRemN a b).2, overflow := false, bound := zeroV w n }

/-- The one pair on which the signed forms overflow: `SMIN` and `MINUS_ONE` (R247 to R250). -/
def divOverflows (a b : Value w n) : Bool := eqN a (sminV w n) && eqN b (umaxV w n)

/-- The quotient rounded toward zero: magnitudes through the unsigned kernel, sign by XOR (R247). -/
def truncQuot (a b : Value w n) : Value w n :=
  let q := (divRemN (uabs a) (uabs b)).1
  if sign a != sign b then negN q else q

/-- The remainder of that division, with the dividend's sign (R248). -/
def truncRem (a b : Value w n) : Value w n :=
  let r := (divRemN (uabs a) (uabs b)).2
  if sign a then negN r else r

/-- The Euclidean quotient: one step away from zero's side when the truncated remainder is negative (R249). -/
def euclidQuot (a b : Value w n) : Value w n :=
  let q := truncQuot a b
  if sign (truncRem a b) then
    if sign b then (addN q (oneV w n) false).1 else (subN q (oneV w n)).1
  else q

/-- The Euclidean remainder: the truncated one moved into `[0, abs(B))` when it is negative (R250). -/
def euclidRem (a b : Value w n) : Value w n :=
  let r := truncRem a b
  if sign r then
    if sign b then (subN r b).1 else (addN r b false).1
  else r

/-- A signed quotient command: the quotient, or `SMIN` and overflow with the bound `SMAX` (R247, R249). -/
def signedQuotTriple (q : Value w n) (a b : Value w n) : Triple w n :=
  if divOverflows a b then { wrapped := sminV w n, overflow := true, bound := smaxV w n }
  else { wrapped := q, overflow := false, bound := zeroV w n }

/-- A signed remainder command: the remainder, or `ZERO` and overflow (R248, R250). -/
def signedRemTriple (r : Value w n) (a b : Value w n) : Triple w n :=
  if divOverflows a b then { wrapped := zeroV w n, overflow := true, bound := zeroV w n }
  else { wrapped := r, overflow := false, bound := zeroV w n }

/-- `DIV.S` (R247). -/
def divSignedTriple (a b : Value w n) : Triple w n := signedQuotTriple (truncQuot a b) a b

/-- `REM.S` (R248). -/
def remSignedTriple (a b : Value w n) : Triple w n := signedRemTriple (truncRem a b) a b

/-- `DIVE.S` (R249). -/
def diveSignedTriple (a b : Value w n) : Triple w n := signedQuotTriple (euclidQuot a b) a b

/-- `REME.S` (R250). -/
def remeSignedTriple (a b : Value w n) : Triple w n := signedRemTriple (euclidRem a b) a b

/-- `DIV.W`: unsigned quotient, wrapping (R243, R101). -/
def execDivW (rd rs1 rs2 : Reg) (s : State) : Result :=
  .next (s.deliverDivision .wrapping rd (s.reg rs2)
    (quotTriple (s.reg rs1) (s.reg rs2)))

/-- `DIV.C`: unsigned quotient, checked (R243, R102). -/
def execDivC (rd rs1 rs2 : Reg) (s : State) : Result :=
  .next (s.deliverDivision .checked rd (s.reg rs2)
    (quotTriple (s.reg rs1) (s.reg rs2)))

/-- `DIV.O`: unsigned quotient, overflowing (R243, R103). -/
def execDivO (rd rs1 rs2 : Reg) (s : State) : Result :=
  .next (s.deliverDivision .overflowing rd (s.reg rs2)
    (quotTriple (s.reg rs1) (s.reg rs2)))

/-- `DIV.SAT`: unsigned quotient, saturating (R243, R104). -/
def execDivSat (rd rs1 rs2 : Reg) (s : State) : Result :=
  .next (s.deliverDivision .saturating rd (s.reg rs2)
    (quotTriple (s.reg rs1) (s.reg rs2)))

/-- `DIV`: unsigned quotient, default variant (R243, R105). -/
def execDiv (rd rs1 rs2 : Reg) (s : State) : Result :=
  .next (s.deliverDivision .panicking rd (s.reg rs2)
    (quotTriple (s.reg rs1) (s.reg rs2)))

/-- `DIV.W.S`: signed quotient, wrapping (R247, R101). -/
def execDivWS (rd rs1 rs2 : Reg) (s : State) : Result :=
  .next (s.deliverDivision .wrapping rd (s.reg rs2)
    (divSignedTriple (s.reg rs1) (s.reg rs2)))

/-- `DIV.C.S`: signed quotient, checked (R247, R102). -/
def execDivCS (rd rs1 rs2 : Reg) (s : State) : Result :=
  .next (s.deliverDivision .checked rd (s.reg rs2)
    (divSignedTriple (s.reg rs1) (s.reg rs2)))

/-- `DIV.O.S`: signed quotient, overflowing (R247, R103). -/
def execDivOS (rd rs1 rs2 : Reg) (s : State) : Result :=
  .next (s.deliverDivision .overflowing rd (s.reg rs2)
    (divSignedTriple (s.reg rs1) (s.reg rs2)))

/-- `DIV.SAT.S`: signed quotient, saturating (R247, R104). -/
def execDivSatS (rd rs1 rs2 : Reg) (s : State) : Result :=
  .next (s.deliverDivision .saturating rd (s.reg rs2)
    (divSignedTriple (s.reg rs1) (s.reg rs2)))

/-- `DIV.S`: signed quotient, default variant (R247, R105). -/
def execDivS (rd rs1 rs2 : Reg) (s : State) : Result :=
  .next (s.deliverDivision .panicking rd (s.reg rs2)
    (divSignedTriple (s.reg rs1) (s.reg rs2)))

/-- `REM.W`: unsigned remainder, wrapping (R244, R101). -/
def execRemW (rd rs1 rs2 : Reg) (s : State) : Result :=
  .next (s.deliverDivision .wrapping rd (s.reg rs2)
    (remTriple (s.reg rs1) (s.reg rs2)))

/-- `REM.C`: unsigned remainder, checked (R244, R102). -/
def execRemC (rd rs1 rs2 : Reg) (s : State) : Result :=
  .next (s.deliverDivision .checked rd (s.reg rs2)
    (remTriple (s.reg rs1) (s.reg rs2)))

/-- `REM.O`: unsigned remainder, overflowing (R244, R103). -/
def execRemO (rd rs1 rs2 : Reg) (s : State) : Result :=
  .next (s.deliverDivision .overflowing rd (s.reg rs2)
    (remTriple (s.reg rs1) (s.reg rs2)))

/-- `REM`: unsigned remainder, default variant (R244, R105). -/
def execRem (rd rs1 rs2 : Reg) (s : State) : Result :=
  .next (s.deliverDivision .panicking rd (s.reg rs2)
    (remTriple (s.reg rs1) (s.reg rs2)))

/-- `REM.W.S`: signed remainder, wrapping (R248, R101). -/
def execRemWS (rd rs1 rs2 : Reg) (s : State) : Result :=
  .next (s.deliverDivision .wrapping rd (s.reg rs2)
    (remSignedTriple (s.reg rs1) (s.reg rs2)))

/-- `REM.C.S`: signed remainder, checked (R248, R102). -/
def execRemCS (rd rs1 rs2 : Reg) (s : State) : Result :=
  .next (s.deliverDivision .checked rd (s.reg rs2)
    (remSignedTriple (s.reg rs1) (s.reg rs2)))

/-- `REM.O.S`: signed remainder, overflowing (R248, R103). -/
def execRemOS (rd rs1 rs2 : Reg) (s : State) : Result :=
  .next (s.deliverDivision .overflowing rd (s.reg rs2)
    (remSignedTriple (s.reg rs1) (s.reg rs2)))

/-- `REM.S`: signed remainder, default variant (R248, R105). -/
def execRemS (rd rs1 rs2 : Reg) (s : State) : Result :=
  .next (s.deliverDivision .panicking rd (s.reg rs2)
    (remSignedTriple (s.reg rs1) (s.reg rs2)))

/-- `DIVE.W`: unsigned Euclidean quotient, wrapping (R245, R101). -/
def execDiveW (rd rs1 rs2 : Reg) (s : State) : Result :=
  .next (s.deliverDivision .wrapping rd (s.reg rs2)
    (quotTriple (s.reg rs1) (s.reg rs2)))

/-- `DIVE.C`: unsigned Euclidean quotient, checked (R245, R102). -/
def execDiveC (rd rs1 rs2 : Reg) (s : State) : Result :=
  .next (s.deliverDivision .checked rd (s.reg rs2)
    (quotTriple (s.reg rs1) (s.reg rs2)))

/-- `DIVE.O`: unsigned Euclidean quotient, overflowing (R245, R103). -/
def execDiveO (rd rs1 rs2 : Reg) (s : State) : Result :=
  .next (s.deliverDivision .overflowing rd (s.reg rs2)
    (quotTriple (s.reg rs1) (s.reg rs2)))

/-- `DIVE.SAT`: unsigned Euclidean quotient, saturating (R245, R104). -/
def execDiveSat (rd rs1 rs2 : Reg) (s : State) : Result :=
  .next (s.deliverDivision .saturating rd (s.reg rs2)
    (quotTriple (s.reg rs1) (s.reg rs2)))

/-- `DIVE`: unsigned Euclidean quotient, default variant (R245, R105). -/
def execDive (rd rs1 rs2 : Reg) (s : State) : Result :=
  .next (s.deliverDivision .panicking rd (s.reg rs2)
    (quotTriple (s.reg rs1) (s.reg rs2)))

/-- `DIVE.W.S`: signed Euclidean quotient, wrapping (R249, R101). -/
def execDiveWS (rd rs1 rs2 : Reg) (s : State) : Result :=
  .next (s.deliverDivision .wrapping rd (s.reg rs2)
    (diveSignedTriple (s.reg rs1) (s.reg rs2)))

/-- `DIVE.C.S`: signed Euclidean quotient, checked (R249, R102). -/
def execDiveCS (rd rs1 rs2 : Reg) (s : State) : Result :=
  .next (s.deliverDivision .checked rd (s.reg rs2)
    (diveSignedTriple (s.reg rs1) (s.reg rs2)))

/-- `DIVE.O.S`: signed Euclidean quotient, overflowing (R249, R103). -/
def execDiveOS (rd rs1 rs2 : Reg) (s : State) : Result :=
  .next (s.deliverDivision .overflowing rd (s.reg rs2)
    (diveSignedTriple (s.reg rs1) (s.reg rs2)))

/-- `DIVE.SAT.S`: signed Euclidean quotient, saturating (R249, R104). -/
def execDiveSatS (rd rs1 rs2 : Reg) (s : State) : Result :=
  .next (s.deliverDivision .saturating rd (s.reg rs2)
    (diveSignedTriple (s.reg rs1) (s.reg rs2)))

/-- `DIVE.S`: signed Euclidean quotient, default variant (R249, R105). -/
def execDiveS (rd rs1 rs2 : Reg) (s : State) : Result :=
  .next (s.deliverDivision .panicking rd (s.reg rs2)
    (diveSignedTriple (s.reg rs1) (s.reg rs2)))

/-- `REME.W`: unsigned Euclidean remainder, wrapping (R246, R101). -/
def execRemeW (rd rs1 rs2 : Reg) (s : State) : Result :=
  .next (s.deliverDivision .wrapping rd (s.reg rs2)
    (remTriple (s.reg rs1) (s.reg rs2)))

/-- `REME.C`: unsigned Euclidean remainder, checked (R246, R102). -/
def execRemeC (rd rs1 rs2 : Reg) (s : State) : Result :=
  .next (s.deliverDivision .checked rd (s.reg rs2)
    (remTriple (s.reg rs1) (s.reg rs2)))

/-- `REME.O`: unsigned Euclidean remainder, overflowing (R246, R103). -/
def execRemeO (rd rs1 rs2 : Reg) (s : State) : Result :=
  .next (s.deliverDivision .overflowing rd (s.reg rs2)
    (remTriple (s.reg rs1) (s.reg rs2)))

/-- `REME`: unsigned Euclidean remainder, default variant (R246, R105). -/
def execReme (rd rs1 rs2 : Reg) (s : State) : Result :=
  .next (s.deliverDivision .panicking rd (s.reg rs2)
    (remTriple (s.reg rs1) (s.reg rs2)))

/-- `REME.W.S`: signed Euclidean remainder, wrapping (R250, R101). -/
def execRemeWS (rd rs1 rs2 : Reg) (s : State) : Result :=
  .next (s.deliverDivision .wrapping rd (s.reg rs2)
    (remeSignedTriple (s.reg rs1) (s.reg rs2)))

/-- `REME.C.S`: signed Euclidean remainder, checked (R250, R102). -/
def execRemeCS (rd rs1 rs2 : Reg) (s : State) : Result :=
  .next (s.deliverDivision .checked rd (s.reg rs2)
    (remeSignedTriple (s.reg rs1) (s.reg rs2)))

/-- `REME.O.S`: signed Euclidean remainder, overflowing (R250, R103). -/
def execRemeOS (rd rs1 rs2 : Reg) (s : State) : Result :=
  .next (s.deliverDivision .overflowing rd (s.reg rs2)
    (remeSignedTriple (s.reg rs1) (s.reg rs2)))

/-- `REME.S`: signed Euclidean remainder, default variant (R250, R105). -/
def execRemeS (rd rs1 rs2 : Reg) (s : State) : Result :=
  .next (s.deliverDivision .panicking rd (s.reg rs2)
    (remeSignedTriple (s.reg rs1) (s.reg rs2)))

end Sys2Proof.Machine
end

