-- ==== Sys2Proof/Machine/GcdLogNpot.lean ====
section
/-! DEFINITION. `GCD`, `LOG2` and `NPOT` (`48_gcd_log_npot.md`). -/

namespace Sys2Proof.Machine

/-- `GCD`: no variants, no fault (R261). -/
def execGcd (rd rs1 rs2 : Reg) (s : State) : Result :=
  .next (s.setReg rd (gcdN (s.reg rs1) (s.reg rs2))).done

/-- `LOG2` of a value that is not zero: `X[xr] <- BITS - 1 - ClzN(a)` (R262, R263). -/
def State.writeLog2 (s : State) (xr rs1 : Reg) : State :=
  s.setExpo xr (BitVec.ofNat 32 (log2N (s.reg rs1)))

/-- `LOG2.C`: absent on zero, `X[xr]` not written (R263). -/
def execLog2C (xr rs1 : Reg) (s : State) : Result :=
  .next
    (if isZeroN (s.reg rs1) then (s.setFlags (putNone true s.flags)).done
    else ((s.writeLog2 xr rs1).setFlags (putNone false s.flags)).done)

/-- `LOG2`: `LogZero` on zero, in both build modes (R263). -/
def execLog2 (xr rs1 : Reg) (s : State) : Result :=
  .next (if isZeroN (s.reg rs1) then s.raise .logZero else (s.writeLog2 xr rs1).done)

/-- `NPOT` (R264, R265). -/
def npotTriple {w n : Nat} (a : Value w n) : Triple w n :=
  let r := npotN a
  { wrapped := r.1, overflow := r.2, bound := zeroV w n }

/-- `NPOT.W`: next power of two, wrapping (R265, R101). -/
def execNpotW (rd rs1 : Reg) (s : State) : Result :=
  .next (s.deliver .wrapping rd (npotTriple (s.reg rs1)))

/-- `NPOT.C`: next power of two, checked (R265, R102). -/
def execNpotC (rd rs1 : Reg) (s : State) : Result :=
  .next (s.deliver .checked rd (npotTriple (s.reg rs1)))

/-- `NPOT.O`: next power of two, overflowing (R265, R103). -/
def execNpotO (rd rs1 : Reg) (s : State) : Result :=
  .next (s.deliver .overflowing rd (npotTriple (s.reg rs1)))

/-- `NPOT`: next power of two, default variant (R265, R105). -/
def execNpot (rd rs1 : Reg) (s : State) : Result :=
  .next (s.deliver .panicking rd (npotTriple (s.reg rs1)))

end Sys2Proof.Machine
end

