-- ==== Sys2Proof/Machine/Multiply.lean ====
section
/-! DEFINITION. The schoolbook multiplier: `MUL`, both families, five variants (`46_multiply.md`). -/

namespace Sys2Proof.Machine

variable {w n : Nat}

/-- Unsigned `MUL` (R222): overflow when anything was dropped, the bound `UMAX`. -/
def mulTriple (a b : Value w n) : Triple w n :=
  let r := mulN a b
  { wrapped := r.1, overflow := r.2, bound := umaxV w n }

/-- Signed `MUL` (R224): magnitudes through the unsigned kernel, sign by XOR. A negative product may have
the magnitude of `SMIN`, a non-negative one only that of `SMAX` (R346). -/
def mulSignedTriple (a b : Value w n) : Triple w n :=
  let p := mulN (uabs a) (uabs b)
  if sign a != sign b then
    { wrapped := negN p.1
      overflow := p.2 || (sign p.1 && !eqN p.1 (sminV w n))
      bound := sminV w n }
  else
    { wrapped := p.1, overflow := p.2 || sign p.1, bound := smaxV w n }

/-- `MUL.W`: unsigned product, wrapping (R222, R101). -/
def execMulW (rd rs1 rs2 : Reg) (s : State) : Result :=
  .next (s.deliver .wrapping rd (mulTriple (s.reg rs1) (s.reg rs2)))

/-- `MUL.C`: unsigned product, checked (R222, R102). -/
def execMulC (rd rs1 rs2 : Reg) (s : State) : Result :=
  .next (s.deliver .checked rd (mulTriple (s.reg rs1) (s.reg rs2)))

/-- `MUL.O`: unsigned product, overflowing (R222, R103). -/
def execMulO (rd rs1 rs2 : Reg) (s : State) : Result :=
  .next (s.deliver .overflowing rd (mulTriple (s.reg rs1) (s.reg rs2)))

/-- `MUL.SAT`: unsigned product, saturating (R222, R104). -/
def execMulSat (rd rs1 rs2 : Reg) (s : State) : Result :=
  .next (s.deliver .saturating rd (mulTriple (s.reg rs1) (s.reg rs2)))

/-- `MUL`: unsigned product, default variant (R222, R105). -/
def execMul (rd rs1 rs2 : Reg) (s : State) : Result :=
  .next (s.deliver .panicking rd (mulTriple (s.reg rs1) (s.reg rs2)))

/-- `MUL.W.S`: signed product, wrapping (R224, R101). -/
def execMulWS (rd rs1 rs2 : Reg) (s : State) : Result :=
  .next (s.deliver .wrapping rd (mulSignedTriple (s.reg rs1) (s.reg rs2)))

/-- `MUL.C.S`: signed product, checked (R224, R102). -/
def execMulCS (rd rs1 rs2 : Reg) (s : State) : Result :=
  .next (s.deliver .checked rd (mulSignedTriple (s.reg rs1) (s.reg rs2)))

/-- `MUL.O.S`: signed product, overflowing (R224, R103). -/
def execMulOS (rd rs1 rs2 : Reg) (s : State) : Result :=
  .next (s.deliver .overflowing rd (mulSignedTriple (s.reg rs1) (s.reg rs2)))

/-- `MUL.SAT.S`: signed product, saturating (R224, R104). -/
def execMulSatS (rd rs1 rs2 : Reg) (s : State) : Result :=
  .next (s.deliver .saturating rd (mulSignedTriple (s.reg rs1) (s.reg rs2)))

/-- `MUL.S`: signed product, default variant (R224, R105). -/
def execMulS (rd rs1 rs2 : Reg) (s : State) : Result :=
  .next (s.deliver .panicking rd (mulSignedTriple (s.reg rs1) (s.reg rs2)))

end Sys2Proof.Machine
end

