-- ==== Sys2Proof/Machine/ShiftRotate.lean ====
section
/-! DEFINITION. The barrel shifter: `SHL`, `SHR`, `ROTL`, `ROTR` (`43_shift_rotate.md`). -/

namespace Sys2Proof.Machine

/-- The overflow condition of a plain shift: an amount of `BITS` or more (R163). -/
def shiftOverflows (i : Instance) (e : Word) : Bool := decide (i.bits ≤ e.toNat)

/-- `SHL` (R164). -/
def shlTriple (i : Instance) (a : Value i.w i.n) (e : Word) : Triple i.w i.n :=
  { wrapped := shlN a (reduceShift i e.toNat)
    overflow := shiftOverflows i e
    bound := zeroV i.w i.n }

/-- `SHR` under the unsigned reading: a logical shift (R165). -/
def shrTriple (i : Instance) (a : Value i.w i.n) (e : Word) : Triple i.w i.n :=
  { wrapped := shrN a (reduceShift i e.toNat) false
    overflow := shiftOverflows i e
    bound := zeroV i.w i.n }

/-- `SHR` under the signed reading: an arithmetic shift (R166). -/
def shrSignedTriple (i : Instance) (a : Value i.w i.n) (e : Word) : Triple i.w i.n :=
  { wrapped := shrN a (reduceShift i e.toNat) (sign a)
    overflow := shiftOverflows i e
    bound := zeroV i.w i.n }

/-- `SHL.W`: left shift, wrapping (R164, R101). -/
def execShlW (rd rs1 xr : Reg) (s : State) : Result :=
  .next (s.deliver .wrapping rd (shlTriple s.inst (s.reg rs1) (s.expo xr)))

/-- `SHL.C`: left shift, checked (R164, R102). -/
def execShlC (rd rs1 xr : Reg) (s : State) : Result :=
  .next (s.deliver .checked rd (shlTriple s.inst (s.reg rs1) (s.expo xr)))

/-- `SHL.O`: left shift, overflowing (R164, R103). -/
def execShlO (rd rs1 xr : Reg) (s : State) : Result :=
  .next (s.deliver .overflowing rd (shlTriple s.inst (s.reg rs1) (s.expo xr)))

/-- `SHL`: left shift, default variant (R164, R105). -/
def execShl (rd rs1 xr : Reg) (s : State) : Result :=
  .next (s.deliver .panicking rd (shlTriple s.inst (s.reg rs1) (s.expo xr)))

/-- `SHR.W`: logical right shift, wrapping (R165, R101). -/
def execShrW (rd rs1 xr : Reg) (s : State) : Result :=
  .next (s.deliver .wrapping rd (shrTriple s.inst (s.reg rs1) (s.expo xr)))

/-- `SHR.C`: logical right shift, checked (R165, R102). -/
def execShrC (rd rs1 xr : Reg) (s : State) : Result :=
  .next (s.deliver .checked rd (shrTriple s.inst (s.reg rs1) (s.expo xr)))

/-- `SHR.O`: logical right shift, overflowing (R165, R103). -/
def execShrO (rd rs1 xr : Reg) (s : State) : Result :=
  .next (s.deliver .overflowing rd (shrTriple s.inst (s.reg rs1) (s.expo xr)))

/-- `SHR`: logical right shift, default variant (R165, R105). -/
def execShr (rd rs1 xr : Reg) (s : State) : Result :=
  .next (s.deliver .panicking rd (shrTriple s.inst (s.reg rs1) (s.expo xr)))

/-- `SHR.W.S`: arithmetic right shift, wrapping (R166, R101). -/
def execShrWS (rd rs1 xr : Reg) (s : State) : Result :=
  .next (s.deliver .wrapping rd (shrSignedTriple s.inst (s.reg rs1) (s.expo xr)))

/-- `SHR.C.S`: arithmetic right shift, checked (R166, R102). -/
def execShrCS (rd rs1 xr : Reg) (s : State) : Result :=
  .next (s.deliver .checked rd (shrSignedTriple s.inst (s.reg rs1) (s.expo xr)))

/-- `SHR.O.S`: arithmetic right shift, overflowing (R166, R103). -/
def execShrOS (rd rs1 xr : Reg) (s : State) : Result :=
  .next (s.deliver .overflowing rd (shrSignedTriple s.inst (s.reg rs1) (s.expo xr)))

/-- `SHR.S`: arithmetic right shift, default variant (R166, R105). -/
def execShrS (rd rs1 xr : Reg) (s : State) : Result :=
  .next (s.deliver .panicking rd (shrSignedTriple s.inst (s.reg rs1) (s.expo xr)))

/-- `ROTL`: left rotate by `X[xr] mod BITS`; no overflow, no flag (R168). -/
def execRotl (rd rs1 xr : Reg) (s : State) : Result :=
  .next (s.setReg rd
    (rotlN (s.reg rs1) (rotateAmount s.inst.w s.inst.n (s.expo xr).toNat))).done

/-- `ROTR`: right rotate by `X[xr] mod BITS`; no overflow, no flag (R169). -/
def execRotr (rd rs1 xr : Reg) (s : State) : Result :=
  .next (s.setReg rd
    (rotrN (s.reg rs1) (rotateAmount s.inst.w s.inst.n (s.expo xr).toNat))).done

end Sys2Proof.Machine
end

