-- ==== Sys2Proof/Machine/TwosComplement.lean ====
section
/-! DEFINITION. The two's-complement layer's own commands: `NEG` and `ABS` (`49_twos_complement.md`). -/

namespace Sys2Proof.Machine

variable {w n : Nat}

/-- Unsigned `NEG.W` (R283): the bare negator, which has the wrapping variant only. -/
def negTriple (a : Value w n) : Triple w n :=
  { wrapped := negN a, overflow := false, bound := zeroV w n }

/-- Signed `NEG` (R284): only `SMIN` overflows, the bound is `SMAX`. -/
def negSignedTriple (a : Value w n) : Triple w n :=
  { wrapped := negN a, overflow := eqN a (sminV w n), bound := smaxV w n }

/-- Signed `ABS` (R285, `90_conflicts.md` C8): a negative operand is negated, another returned as it is;
only `SMIN` overflows, the bound is `SMAX`. -/
def absSignedTriple (a : Value w n) : Triple w n :=
  { wrapped := if sign a then negN a else a, overflow := eqN a (sminV w n), bound := smaxV w n }

/-- `NEG.W`: unsigned negation, wrapping (R283, R101). -/
def execNegW (rd rs1 : Reg) (s : State) : Result :=
  .next (s.deliver .wrapping rd (negTriple (s.reg rs1)))

/-- `NEG.W.S`: signed negation, wrapping (R284, R101). -/
def execNegWS (rd rs1 : Reg) (s : State) : Result :=
  .next (s.deliver .wrapping rd (negSignedTriple (s.reg rs1)))

/-- `NEG.C.S`: signed negation, checked (R284, R102). -/
def execNegCS (rd rs1 : Reg) (s : State) : Result :=
  .next (s.deliver .checked rd (negSignedTriple (s.reg rs1)))

/-- `NEG.O.S`: signed negation, overflowing (R284, R103). -/
def execNegOS (rd rs1 : Reg) (s : State) : Result :=
  .next (s.deliver .overflowing rd (negSignedTriple (s.reg rs1)))

/-- `NEG.SAT.S`: signed negation, saturating (R284, R104). -/
def execNegSatS (rd rs1 : Reg) (s : State) : Result :=
  .next (s.deliver .saturating rd (negSignedTriple (s.reg rs1)))

/-- `NEG.S`: signed negation, default variant (R284, R105). -/
def execNegS (rd rs1 : Reg) (s : State) : Result :=
  .next (s.deliver .panicking rd (negSignedTriple (s.reg rs1)))

/-- `ABS.W.S`: signed absolute value, wrapping (R285, R101). -/
def execAbsWS (rd rs1 : Reg) (s : State) : Result :=
  .next (s.deliver .wrapping rd (absSignedTriple (s.reg rs1)))

/-- `ABS.C.S`: signed absolute value, checked (R285, R102). -/
def execAbsCS (rd rs1 : Reg) (s : State) : Result :=
  .next (s.deliver .checked rd (absSignedTriple (s.reg rs1)))

/-- `ABS.O.S`: signed absolute value, overflowing (R285, R103). -/
def execAbsOS (rd rs1 : Reg) (s : State) : Result :=
  .next (s.deliver .overflowing rd (absSignedTriple (s.reg rs1)))

/-- `ABS.SAT.S`: signed absolute value, saturating (R285, R104). -/
def execAbsSatS (rd rs1 : Reg) (s : State) : Result :=
  .next (s.deliver .saturating rd (absSignedTriple (s.reg rs1)))

/-- `ABS.S`: signed absolute value, default variant (R285, R105). -/
def execAbsS (rd rs1 : Reg) (s : State) : Result :=
  .next (s.deliver .panicking rd (absSignedTriple (s.reg rs1)))

end Sys2Proof.Machine
end

