-- ==== Sys2Proof/Machine/Dispatch.lean ====
section
/-! DEFINITION. The meaning of every command: one arm per constructor of `Instr`, each one direct call. -/

namespace Sys2Proof.Machine

def exec (i : Instr) (s : State) : Host.Outcome State Fault Refusal :=
  match i with
  | .nop => Sys2Proof.Machine.execNop s
  | .mov rd rs1 => Sys2Proof.Machine.execMov rd rs1 s
  | .ldd r idx => Sys2Proof.Machine.execLdd r idx s
  | .std r idx => Sys2Proof.Machine.execStd r idx s
  | .lds r => Sys2Proof.Machine.execLds r s
  | .ldx xr => Sys2Proof.Machine.execLdx xr s
  | .stx xr => Sys2Proof.Machine.execStx xr s
  | .rcs idx => Sys2Proof.Machine.execRcs idx s
  | .fclr => Sys2Proof.Machine.execFclr s
  | .cmp rs1 rs2 => Sys2Proof.Machine.execCmp rs1 rs2 s
  | .cmpS rs1 rs2 => Sys2Proof.Machine.execCmpS rs1 rs2 s
  | .eq rs1 rs2 => Sys2Proof.Machine.execEq rs1 rs2 s
  | .isz rs1 => Sys2Proof.Machine.execIsz rs1 s
  | .isone rs1 => Sys2Proof.Machine.execIsone rs1 s
  | .isp2 rs1 => Sys2Proof.Machine.execIsp2 rs1 s
  | .isneg rs1 => Sys2Proof.Machine.execIsneg rs1 s
  | .blen xr rs1 => Sys2Proof.Machine.execBlen xr rs1 s
  | .bit rs1 xr => Sys2Proof.Machine.execBit rs1 xr s
  | .shlW rd rs1 xr => Sys2Proof.Machine.execShlW rd rs1 xr s
  | .shlC rd rs1 xr => Sys2Proof.Machine.execShlC rd rs1 xr s
  | .shlO rd rs1 xr => Sys2Proof.Machine.execShlO rd rs1 xr s
  | .shl rd rs1 xr => Sys2Proof.Machine.execShl rd rs1 xr s
  | .shrW rd rs1 xr => Sys2Proof.Machine.execShrW rd rs1 xr s
  | .shrC rd rs1 xr => Sys2Proof.Machine.execShrC rd rs1 xr s
  | .shrO rd rs1 xr => Sys2Proof.Machine.execShrO rd rs1 xr s
  | .shr rd rs1 xr => Sys2Proof.Machine.execShr rd rs1 xr s
  | .shrWS rd rs1 xr => Sys2Proof.Machine.execShrWS rd rs1 xr s
  | .shrCS rd rs1 xr => Sys2Proof.Machine.execShrCS rd rs1 xr s
  | .shrOS rd rs1 xr => Sys2Proof.Machine.execShrOS rd rs1 xr s
  | .shrS rd rs1 xr => Sys2Proof.Machine.execShrS rd rs1 xr s
  | .rotl rd rs1 xr => Sys2Proof.Machine.execRotl rd rs1 xr s
  | .rotr rd rs1 xr => Sys2Proof.Machine.execRotr rd rs1 xr s
  | .clz xr rs1 => Sys2Proof.Machine.execClz xr rs1 s
  | .ctz xr rs1 => Sys2Proof.Machine.execCtz xr rs1 s
  | .clo xr rs1 => Sys2Proof.Machine.execClo xr rs1 s
  | .cto xr rs1 => Sys2Proof.Machine.execCto xr rs1 s
  | .cnt1 xr rs1 => Sys2Proof.Machine.execCnt1 xr rs1 s
  | .cnt0 xr rs1 => Sys2Proof.Machine.execCnt0 xr rs1 s
  | .swapb rd rs1 => Sys2Proof.Machine.execSwapb rd rs1 s
  | .revb rd rs1 => Sys2Proof.Machine.execRevb rd rs1 s
  | .not rd rs1 => Sys2Proof.Machine.execNot rd rs1 s
  | .addW rd rs1 rs2 => Sys2Proof.Machine.execAddW rd rs1 rs2 s
  | .addC rd rs1 rs2 => Sys2Proof.Machine.execAddC rd rs1 rs2 s
  | .addO rd rs1 rs2 => Sys2Proof.Machine.execAddO rd rs1 rs2 s
  | .addSat rd rs1 rs2 => Sys2Proof.Machine.execAddSat rd rs1 rs2 s
  | .add rd rs1 rs2 => Sys2Proof.Machine.execAdd rd rs1 rs2 s
  | .addWS rd rs1 rs2 => Sys2Proof.Machine.execAddWS rd rs1 rs2 s
  | .addCS rd rs1 rs2 => Sys2Proof.Machine.execAddCS rd rs1 rs2 s
  | .addOS rd rs1 rs2 => Sys2Proof.Machine.execAddOS rd rs1 rs2 s
  | .addSatS rd rs1 rs2 => Sys2Proof.Machine.execAddSatS rd rs1 rs2 s
  | .addS rd rs1 rs2 => Sys2Proof.Machine.execAddS rd rs1 rs2 s
  | .subW rd rs1 rs2 => Sys2Proof.Machine.execSubW rd rs1 rs2 s
  | .subC rd rs1 rs2 => Sys2Proof.Machine.execSubC rd rs1 rs2 s
  | .subO rd rs1 rs2 => Sys2Proof.Machine.execSubO rd rs1 rs2 s
  | .subSat rd rs1 rs2 => Sys2Proof.Machine.execSubSat rd rs1 rs2 s
  | .sub rd rs1 rs2 => Sys2Proof.Machine.execSub rd rs1 rs2 s
  | .subWS rd rs1 rs2 => Sys2Proof.Machine.execSubWS rd rs1 rs2 s
  | .subCS rd rs1 rs2 => Sys2Proof.Machine.execSubCS rd rs1 rs2 s
  | .subOS rd rs1 rs2 => Sys2Proof.Machine.execSubOS rd rs1 rs2 s
  | .subSatS rd rs1 rs2 => Sys2Proof.Machine.execSubSatS rd rs1 rs2 s
  | .subS rd rs1 rs2 => Sys2Proof.Machine.execSubS rd rs1 rs2 s
  | .mulW rd rs1 rs2 => Sys2Proof.Machine.execMulW rd rs1 rs2 s
  | .mulC rd rs1 rs2 => Sys2Proof.Machine.execMulC rd rs1 rs2 s
  | .mulO rd rs1 rs2 => Sys2Proof.Machine.execMulO rd rs1 rs2 s
  | .mulSat rd rs1 rs2 => Sys2Proof.Machine.execMulSat rd rs1 rs2 s
  | .mul rd rs1 rs2 => Sys2Proof.Machine.execMul rd rs1 rs2 s
  | .mulWS rd rs1 rs2 => Sys2Proof.Machine.execMulWS rd rs1 rs2 s
  | .mulCS rd rs1 rs2 => Sys2Proof.Machine.execMulCS rd rs1 rs2 s
  | .mulOS rd rs1 rs2 => Sys2Proof.Machine.execMulOS rd rs1 rs2 s
  | .mulSatS rd rs1 rs2 => Sys2Proof.Machine.execMulSatS rd rs1 rs2 s
  | .mulS rd rs1 rs2 => Sys2Proof.Machine.execMulS rd rs1 rs2 s
  | .divW rd rs1 rs2 => Sys2Proof.Machine.execDivW rd rs1 rs2 s
  | .divC rd rs1 rs2 => Sys2Proof.Machine.execDivC rd rs1 rs2 s
  | .divO rd rs1 rs2 => Sys2Proof.Machine.execDivO rd rs1 rs2 s
  | .divSat rd rs1 rs2 => Sys2Proof.Machine.execDivSat rd rs1 rs2 s
  | .div rd rs1 rs2 => Sys2Proof.Machine.execDiv rd rs1 rs2 s
  | .divWS rd rs1 rs2 => Sys2Proof.Machine.execDivWS rd rs1 rs2 s
  | .divCS rd rs1 rs2 => Sys2Proof.Machine.execDivCS rd rs1 rs2 s
  | .divOS rd rs1 rs2 => Sys2Proof.Machine.execDivOS rd rs1 rs2 s
  | .divSatS rd rs1 rs2 => Sys2Proof.Machine.execDivSatS rd rs1 rs2 s
  | .divS rd rs1 rs2 => Sys2Proof.Machine.execDivS rd rs1 rs2 s
  | .remW rd rs1 rs2 => Sys2Proof.Machine.execRemW rd rs1 rs2 s
  | .remC rd rs1 rs2 => Sys2Proof.Machine.execRemC rd rs1 rs2 s
  | .remO rd rs1 rs2 => Sys2Proof.Machine.execRemO rd rs1 rs2 s
  | .rem rd rs1 rs2 => Sys2Proof.Machine.execRem rd rs1 rs2 s
  | .remWS rd rs1 rs2 => Sys2Proof.Machine.execRemWS rd rs1 rs2 s
  | .remCS rd rs1 rs2 => Sys2Proof.Machine.execRemCS rd rs1 rs2 s
  | .remOS rd rs1 rs2 => Sys2Proof.Machine.execRemOS rd rs1 rs2 s
  | .remS rd rs1 rs2 => Sys2Proof.Machine.execRemS rd rs1 rs2 s
  | .diveW rd rs1 rs2 => Sys2Proof.Machine.execDiveW rd rs1 rs2 s
  | .diveC rd rs1 rs2 => Sys2Proof.Machine.execDiveC rd rs1 rs2 s
  | .diveO rd rs1 rs2 => Sys2Proof.Machine.execDiveO rd rs1 rs2 s
  | .diveSat rd rs1 rs2 => Sys2Proof.Machine.execDiveSat rd rs1 rs2 s
  | .dive rd rs1 rs2 => Sys2Proof.Machine.execDive rd rs1 rs2 s
  | .diveWS rd rs1 rs2 => Sys2Proof.Machine.execDiveWS rd rs1 rs2 s
  | .diveCS rd rs1 rs2 => Sys2Proof.Machine.execDiveCS rd rs1 rs2 s
  | .diveOS rd rs1 rs2 => Sys2Proof.Machine.execDiveOS rd rs1 rs2 s
  | .diveSatS rd rs1 rs2 => Sys2Proof.Machine.execDiveSatS rd rs1 rs2 s
  | .diveS rd rs1 rs2 => Sys2Proof.Machine.execDiveS rd rs1 rs2 s
  | .remeW rd rs1 rs2 => Sys2Proof.Machine.execRemeW rd rs1 rs2 s
  | .remeC rd rs1 rs2 => Sys2Proof.Machine.execRemeC rd rs1 rs2 s
  | .remeO rd rs1 rs2 => Sys2Proof.Machine.execRemeO rd rs1 rs2 s
  | .reme rd rs1 rs2 => Sys2Proof.Machine.execReme rd rs1 rs2 s
  | .remeWS rd rs1 rs2 => Sys2Proof.Machine.execRemeWS rd rs1 rs2 s
  | .remeCS rd rs1 rs2 => Sys2Proof.Machine.execRemeCS rd rs1 rs2 s
  | .remeOS rd rs1 rs2 => Sys2Proof.Machine.execRemeOS rd rs1 rs2 s
  | .remeS rd rs1 rs2 => Sys2Proof.Machine.execRemeS rd rs1 rs2 s
  | .gcd rd rs1 rs2 => Sys2Proof.Machine.execGcd rd rs1 rs2 s
  | .log2C xr rs1 => Sys2Proof.Machine.execLog2C xr rs1 s
  | .log2 xr rs1 => Sys2Proof.Machine.execLog2 xr rs1 s
  | .npotW rd rs1 => Sys2Proof.Machine.execNpotW rd rs1 s
  | .npotC rd rs1 => Sys2Proof.Machine.execNpotC rd rs1 s
  | .npotO rd rs1 => Sys2Proof.Machine.execNpotO rd rs1 s
  | .npot rd rs1 => Sys2Proof.Machine.execNpot rd rs1 s
  | .negW rd rs1 => Sys2Proof.Machine.execNegW rd rs1 s
  | .negWS rd rs1 => Sys2Proof.Machine.execNegWS rd rs1 s
  | .negCS rd rs1 => Sys2Proof.Machine.execNegCS rd rs1 s
  | .negOS rd rs1 => Sys2Proof.Machine.execNegOS rd rs1 s
  | .negSatS rd rs1 => Sys2Proof.Machine.execNegSatS rd rs1 s
  | .negS rd rs1 => Sys2Proof.Machine.execNegS rd rs1 s
  | .absWS rd rs1 => Sys2Proof.Machine.execAbsWS rd rs1 s
  | .absCS rd rs1 => Sys2Proof.Machine.execAbsCS rd rs1 s
  | .absOS rd rs1 => Sys2Proof.Machine.execAbsOS rd rs1 s
  | .absSatS rd rs1 => Sys2Proof.Machine.execAbsSatS rd rs1 s
  | .absS rd rs1 => Sys2Proof.Machine.execAbsS rd rs1 s

end Sys2Proof.Machine
end

