-- ==== Sys2Proof/Machine/Transaction.lean ====
section
/-! DEFINITION. One move of the host: one whole transaction (`60_exceptions.md` R312), a reset, or a new
strap level. -/

namespace Sys2Proof.Machine

/-- One transaction (R312, R80): rejected while a fault is active unless the low byte is `RCS` or `FCLR`;
`Illegal` when the word does not decode; else the command's rule. -/
def transact (s : State) : Result :=
  if s.faultOutput && !runsWhileFaulted s.request.cmd then .next s.reject
  else
    match decode s.request.cmd with
    | .error _ => .next (s.raise .illegal)
    | .ok i => exec i s

/-- The host presents a request: the unit is idle and takes it (R58, R70). -/
def State.accept (s : State) (req : Request s.inst.w) : State := { s with request := req }

/-- The host holds `cfg_checked` at a level; nothing else changes until the next reset (R331). -/
def State.setStrap (s : State) (level : Bool) : State := { s with strap := level }

/-- One move of the host, already taken off the list. -/
def hostMove (s : State) (m : HostMove s.inst.w) : Result :=
  match m with
  | .command req => transact (s.accept req)
  | .reset => .next s.resetUnit
  | .strap level => .next (s.setStrap level)

/-- The list of moves with a command word as the next one (log 6): the word of a command that already
stands there is replaced and its data-in values are kept; before any other list a command with data-in
values 0 is put. -/
def placeCommand {w : Nat} (cmd : Word) (moves : List (HostMove w)) : List (HostMove w) :=
  match moves with
  | .command req :: rest => .command { req with cmd := cmd } :: rest
  | rest => .command ⟨cmd, 0, 0⟩ :: rest

end Sys2Proof.Machine
end

