-- ==== Sys2Proof/Machine/Step.lean ====
section
/-! DEFINITION. The step: the next move of the host, or idleness. -/

namespace Sys2Proof.Machine

/-- One step. With no move to come the unit is idle, waiting for the host, and stays as it is (R330,
R353; log 6). -/
def step (s : State) : Host.Outcome State Fault Refusal :=
  match s.inputs with
  | [] => .next s
  | m :: rest => hostMove { s with inputs := rest } m

/-- The state whose next move is the command word of the low `nbits` bits of `w` (log 6). -/
def State.withFetchWord (s : State) (nbits w : Nat) : State :=
  { s with inputs := placeCommand (BitVec.ofNat 32 (w % 2 ^ nbits)) s.inputs }

end Sys2Proof.Machine
end

