-- ==== Sys2Proof/Machine/Assembler.lean ====
section
/-! DEFINITION. The assembly language of the spec: the written form of a command (`30_encoding.md` R82) and
the fixed expansions of the pseudo-instructions (R83). Nothing here changes what a command does. -/

namespace Sys2Proof.Machine

/-- `MNEMONIC[.v][.S]` of a command (R82), letter for letter as the opcode table has it. -/
def mnemonicOf (i : Instr) : String :=
  match i with
  | .nop => "NOP"
  | .mov _ _ => "MOV"
  | .ldd _ _ => "LDD"
  | .std _ _ => "STD"
  | .lds _ => "LDS"
  | .ldx _ => "LDX"
  | .stx _ => "STX"
  | .rcs _ => "RCS"
  | .fclr => "FCLR"
  | .cmp _ _ => "CMP"
  | .cmpS _ _ => "CMP.S"
  | .eq _ _ => "EQ"
  | .isz _ => "ISZ"
  | .isone _ => "ISONE"
  | .isp2 _ => "ISP2"
  | .isneg _ => "ISNEG"
  | .blen _ _ => "BLEN"
  | .bit _ _ => "BIT"
  | .shlW _ _ _ => "SHL.W"
  | .shlC _ _ _ => "SHL.C"
  | .shlO _ _ _ => "SHL.O"
  | .shl _ _ _ => "SHL"
  | .shrW _ _ _ => "SHR.W"
  | .shrC _ _ _ => "SHR.C"
  | .shrO _ _ _ => "SHR.O"
  | .shr _ _ _ => "SHR"
  | .shrWS _ _ _ => "SHR.W.S"
  | .shrCS _ _ _ => "SHR.C.S"
  | .shrOS _ _ _ => "SHR.O.S"
  | .shrS _ _ _ => "SHR.S"
  | .rotl _ _ _ => "ROTL"
  | .rotr _ _ _ => "ROTR"
  | .clz _ _ => "CLZ"
  | .ctz _ _ => "CTZ"
  | .clo _ _ => "CLO"
  | .cto _ _ => "CTO"
  | .cnt1 _ _ => "CNT1"
  | .cnt0 _ _ => "CNT0"
  | .swapb _ _ => "SWAPB"
  | .revb _ _ => "REVB"
  | .not _ _ => "NOT"
  | .addW _ _ _ => "ADD.W"
  | .addC _ _ _ => "ADD.C"
  | .addO _ _ _ => "ADD.O"
  | .addSat _ _ _ => "ADD.SAT"
  | .add _ _ _ => "ADD"
  | .addWS _ _ _ => "ADD.W.S"
  | .addCS _ _ _ => "ADD.C.S"
  | .addOS _ _ _ => "ADD.O.S"
  | .addSatS _ _ _ => "ADD.SAT.S"
  | .addS _ _ _ => "ADD.S"
  | .subW _ _ _ => "SUB.W"
  | .subC _ _ _ => "SUB.C"
  | .subO _ _ _ => "SUB.O"
  | .subSat _ _ _ => "SUB.SAT"
  | .sub _ _ _ => "SUB"
  | .subWS _ _ _ => "SUB.W.S"
  | .subCS _ _ _ => "SUB.C.S"
  | .subOS _ _ _ => "SUB.O.S"
  | .subSatS _ _ _ => "SUB.SAT.S"
  | .subS _ _ _ => "SUB.S"
  | .mulW _ _ _ => "MUL.W"
  | .mulC _ _ _ => "MUL.C"
  | .mulO _ _ _ => "MUL.O"
  | .mulSat _ _ _ => "MUL.SAT"
  | .mul _ _ _ => "MUL"
  | .mulWS _ _ _ => "MUL.W.S"
  | .mulCS _ _ _ => "MUL.C.S"
  | .mulOS _ _ _ => "MUL.O.S"
  | .mulSatS _ _ _ => "MUL.SAT.S"
  | .mulS _ _ _ => "MUL.S"
  | .divW _ _ _ => "DIV.W"
  | .divC _ _ _ => "DIV.C"
  | .divO _ _ _ => "DIV.O"
  | .divSat _ _ _ => "DIV.SAT"
  | .div _ _ _ => "DIV"
  | .divWS _ _ _ => "DIV.W.S"
  | .divCS _ _ _ => "DIV.C.S"
  | .divOS _ _ _ => "DIV.O.S"
  | .divSatS _ _ _ => "DIV.SAT.S"
  | .divS _ _ _ => "DIV.S"
  | .remW _ _ _ => "REM.W"
  | .remC _ _ _ => "REM.C"
  | .remO _ _ _ => "REM.O"
  | .rem _ _ _ => "REM"
  | .remWS _ _ _ => "REM.W.S"
  | .remCS _ _ _ => "REM.C.S"
  | .remOS _ _ _ => "REM.O.S"
  | .remS _ _ _ => "REM.S"
  | .diveW _ _ _ => "DIVE.W"
  | .diveC _ _ _ => "DIVE.C"
  | .diveO _ _ _ => "DIVE.O"
  | .diveSat _ _ _ => "DIVE.SAT"
  | .dive _ _ _ => "DIVE"
  | .diveWS _ _ _ => "DIVE.W.S"
  | .diveCS _ _ _ => "DIVE.C.S"
  | .diveOS _ _ _ => "DIVE.O.S"
  | .diveSatS _ _ _ => "DIVE.SAT.S"
  | .diveS _ _ _ => "DIVE.S"
  | .remeW _ _ _ => "REME.W"
  | .remeC _ _ _ => "REME.C"
  | .remeO _ _ _ => "REME.O"
  | .reme _ _ _ => "REME"
  | .remeWS _ _ _ => "REME.W.S"
  | .remeCS _ _ _ => "REME.C.S"
  | .remeOS _ _ _ => "REME.O.S"
  | .remeS _ _ _ => "REME.S"
  | .gcd _ _ _ => "GCD"
  | .log2C _ _ => "LOG2.C"
  | .log2 _ _ => "LOG2"
  | .npotW _ _ => "NPOT.W"
  | .npotC _ _ => "NPOT.C"
  | .npotO _ _ => "NPOT.O"
  | .npot _ _ => "NPOT"
  | .negW _ _ => "NEG.W"
  | .negWS _ _ => "NEG.W.S"
  | .negCS _ _ => "NEG.C.S"
  | .negOS _ _ => "NEG.O.S"
  | .negSatS _ _ => "NEG.SAT.S"
  | .negS _ _ => "NEG.S"
  | .absWS _ _ => "ABS.W.S"
  | .absCS _ _ => "ABS.C.S"
  | .absOS _ _ => "ABS.O.S"
  | .absSatS _ _ => "ABS.SAT.S"
  | .absS _ _ => "ABS.S"

/-- A value register by name (R82). -/
def valueName (r : Reg) : String := "V" ++ Nat.repr r.val

/-- An exponent register by name (R82). -/
def expoName (r : Reg) : String := "X" ++ Nat.repr r.val

/-- A digit, `Vr[idx]` (R82). -/
def digitName (r : Reg) (idx : DigitIdx) : String := valueName r ++ "[" ++ Nat.repr idx.toNat ++ "]"

/-- A control register by name (R82, R29); none for a number above 6. -/
def csrName (idx : DigitIdx) : Option String :=
  ["FLAGS", "FAULT", "FCMD", "CFG", "PARAM_W", "PARAM_N", "PARAM_BITS"][idx.toNat]?

/-- A data-in value, written after the operands (R82); the number is written in decimal (log 23). -/
def dataName (v : Nat) : String := "#" ++ Nat.repr v

/-- The operands of a command in written order, the destination first, a data-in value last (R82). None for
an ill-formed command, which has no written form. -/
def operandsOf {w : Nat} (i : Instr) (req : Request w) : Option (List String) :=
  match i with
  | .nop | .fclr => some []
  | .mov rd rs1 | .swapb rd rs1 | .revb rd rs1 | .not rd rs1 | .npotW rd rs1 | .npotC rd rs1
  | .npotO rd rs1 | .npot rd rs1 | .negW rd rs1 | .negWS rd rs1 | .negCS rd rs1 | .negOS rd rs1
  | .negSatS rd rs1 | .negS rd rs1 | .absWS rd rs1 | .absCS rd rs1 | .absOS rd rs1 | .absSatS rd rs1
  | .absS rd rs1 => some [valueName rd, valueName rs1]
  | .ldd r idx => some [digitName r idx, dataName req.dinD.toNat]
  | .std r idx => some [digitName r idx]
  | .lds r => some [valueName r, dataName req.dinD.toNat]
  | .ldx xr => some [expoName xr, dataName req.dinX.toNat]
  | .stx xr => some [expoName xr]
  | .rcs idx => (csrName idx).map fun n => [n]
  | .cmp rs1 rs2 | .cmpS rs1 rs2 | .eq rs1 rs2 => some [valueName rs1, valueName rs2]
  | .isz rs1 | .isone rs1 | .isp2 rs1 | .isneg rs1 => some [valueName rs1]
  | .blen xr rs1 | .clz xr rs1 | .ctz xr rs1 | .clo xr rs1 | .cto xr rs1 | .cnt1 xr rs1 | .cnt0 xr rs1
  | .log2C xr rs1 | .log2 xr rs1 => some [expoName xr, valueName rs1]
  | .bit rs1 xr => some [valueName rs1, expoName xr]
  | .shlW rd rs1 xr | .shlC rd rs1 xr | .shlO rd rs1 xr | .shl rd rs1 xr | .shrW rd rs1 xr
  | .shrC rd rs1 xr | .shrO rd rs1 xr | .shr rd rs1 xr | .shrWS rd rs1 xr | .shrCS rd rs1 xr
  | .shrOS rd rs1 xr | .shrS rd rs1 xr | .rotl rd rs1 xr | .rotr rd rs1 xr =>
      some [valueName rd, valueName rs1, expoName xr]
  | .addW rd rs1 rs2 | .addC rd rs1 rs2 | .addO rd rs1 rs2 | .addSat rd rs1 rs2 | .add rd rs1 rs2
  | .addWS rd rs1 rs2 | .addCS rd rs1 rs2 | .addOS rd rs1 rs2 | .addSatS rd rs1 rs2 | .addS rd rs1 rs2
  | .subW rd rs1 rs2 | .subC rd rs1 rs2 | .subO rd rs1 rs2 | .subSat rd rs1 rs2 | .sub rd rs1 rs2
  | .subWS rd rs1 rs2 | .subCS rd rs1 rs2 | .subOS rd rs1 rs2 | .subSatS rd rs1 rs2 | .subS rd rs1 rs2
  | .mulW rd rs1 rs2 | .mulC rd rs1 rs2 | .mulO rd rs1 rs2 | .mulSat rd rs1 rs2 | .mul rd rs1 rs2
  | .mulWS rd rs1 rs2 | .mulCS rd rs1 rs2 | .mulOS rd rs1 rs2 | .mulSatS rd rs1 rs2 | .mulS rd rs1 rs2
  | .divW rd rs1 rs2 | .divC rd rs1 rs2 | .divO rd rs1 rs2 | .divSat rd rs1 rs2 | .div rd rs1 rs2
  | .divWS rd rs1 rs2 | .divCS rd rs1 rs2 | .divOS rd rs1 rs2 | .divSatS rd rs1 rs2 | .divS rd rs1 rs2
  | .remW rd rs1 rs2 | .remC rd rs1 rs2 | .remO rd rs1 rs2 | .rem rd rs1 rs2 | .remWS rd rs1 rs2
  | .remCS rd rs1 rs2 | .remOS rd rs1 rs2 | .remS rd rs1 rs2 | .diveW rd rs1 rs2 | .diveC rd rs1 rs2
  | .diveO rd rs1 rs2 | .diveSat rd rs1 rs2 | .dive rd rs1 rs2 | .diveWS rd rs1 rs2 | .diveCS rd rs1 rs2
  | .diveOS rd rs1 rs2 | .diveSatS rd rs1 rs2 | .diveS rd rs1 rs2 | .remeW rd rs1 rs2
  | .remeC rd rs1 rs2 | .remeO rd rs1 rs2 | .reme rd rs1 rs2 | .remeWS rd rs1 rs2 | .remeCS rd rs1 rs2
  | .remeOS rd rs1 rs2 | .remeS rd rs1 rs2 | .gcd rd rs1 rs2 =>
      some [valueName rd, valueName rs1, valueName rs2]

/-- The operands separated by commas. -/
def joinOperands (ops : List String) : String :=
  match ops with
  | [] => ""
  | [o] => o
  | o :: rest => o ++ ", " ++ joinOperands rest

/-- The written form of a command with the data-in values of its request (R82). -/
def written {w : Nat} (i : Instr) (req : Request w) : Option String :=
  (operandsOf i req).map fun ops =>
    match ops with
    | [] => mnemonicOf i
    | _ => mnemonicOf i ++ " " ++ joinOperands ops

/-- The pseudo-instructions, all of them (R83). -/
inductive Pseudo where
  /-- `LDV Vr, #v`: load a literal of `BITS` bits. -/
  | ldv (r : Reg) (v : Nat)
  /-- `STV Vr`: store every digit, the host collecting `dout_d` of each. -/
  | stv (r : Reg)
  /-- `CLR Vr`: load 0. -/
  | clr (r : Reg)
  /-- `SET1 Vr`: load 1. -/
  | set1 (r : Reg)
  /-- `LDMAX Vr`: load `UMAX`. -/
  | ldmax (r : Reg)
  /-- `LDSMIN Vr`: load `SMIN`. -/
  | ldsmin (r : Reg)
  /-- `LDSMAX Vr`: load `SMAX`. -/
  | ldsmax (r : Reg)
deriving DecidableEq, Repr

/-- The request of a command with a data-in digit. -/
def requestOf {w : Nat} (i : Instr) (d : BitVec w) : Request w := ⟨encode i, d, 0⟩

/-- `LDV Vr, #v`: the `N` commands `LDD Vr[i], #dig(v)[i]`, `i` from 0 up (R83). -/
def loadLiteral (inst : Instance) (r : Reg) (v : Nat) : List (Request inst.w) :=
  (List.range inst.n).map fun i =>
    requestOf (.ldd r (BitVec.ofNat 16 i)) (digitAt (dig inst.w inst.n v) i)

/-- `LDS Vr, #d`. -/
def loadSmall {w : Nat} (r : Reg) (d : BitVec w) : Request w := requestOf (.lds r) d

/-- `NOT Vr, Vr`. -/
def complement {w : Nat} (r : Reg) : Request w := requestOf (.not r r) 0

/-- The fixed expansion of a pseudo-instruction: the requests the host issues, in order (R83). -/
def Pseudo.expand (inst : Instance) (p : Pseudo) : List (Request inst.w) :=
  match p with
  | .ldv r v => loadLiteral inst r v
  | .stv r => (List.range inst.n).map fun i => requestOf (.std r (BitVec.ofNat 16 i)) 0
  | .clr r => [loadSmall r 0]
  | .set1 r => [loadSmall r 1]
  | .ldmax r => [loadSmall r 0, complement r]
  | .ldsmin r => loadLiteral inst r (2 ^ (inst.bits - 1))
  | .ldsmax r => loadLiteral inst r (2 ^ (inst.bits - 1)) ++ [complement r]

/-- A list of requests put before the host's other moves. -/
def State.issue (s : State) (reqs : List (Request s.inst.w)) : State :=
  { s with inputs := reqs.map .command ++ s.inputs }

end Sys2Proof.Machine
end

