-- ==== Sys2Proof/Safety.lean ====
section
/-! DEFINITION. What the claims call a well-formed state and a safe run: the control registers hold only
what the spec says they ever hold (`93_implementation_defined.md` I9), and no fault is left
unacknowledged. -/

namespace Sys2Proof.Machine

/-- `FLAGS` holds only what is ever written: bits 31:5 zero, `ORD` not 3 (R23). -/
abbrev FlagsWf (f : Word) : Prop := f.toNat < 32 ∧ flagOrd f ≠ 3

/-- `FAULT` and `FCMD` are both 0 while no fault is active, and `FAULT` is the word of one of the five
causes while one is (R25, R26, R301). -/
abbrev FaultWf (fault fcmd : Word) : Prop :=
  (fault = 0 ∧ fcmd = 0) ∨
    fault ∈ [Cause.overflow, Cause.divZero, Cause.logZero, Cause.illegal, Cause.index].map faultWord

/-- `CFG` holds `CHECKED` and zeros (R35). -/
abbrev CfgWf (cfg : Word) : Prop := cfg = cfgWord false ∨ cfg = cfgWord true

/-- The control registers are well formed. The digit count and widths of the registers are carried by
their types. -/
abbrev State.Inv (s : State) : Prop := FlagsWf s.flags ∧ FaultWf s.fault s.fcmd ∧ CfgWf s.cfg

/-- The fault output is low: no fault waits to be acknowledged (R353). -/
abbrev State.acknowledged (s : State) : Prop := s.faultOutput = false

/-- A run that ends in a state with no unacknowledged fault (R353). -/
def SafeRun (k : Nat) (s : State) : Prop :=
  ∃ t, Sys2Proof.core.run k s = .next t ∧ t.acknowledged

end Sys2Proof.Machine
end

