-- ==== Sys2Proof/Certificates/Slice0/Obligations.lean ====
section
/-! DEFINITION. The statements about the model that are to be proved. The first part names the shapes of
next state the statements speak of, each written out field by field, so that every statement of a next
state says its whole frame: the fields a shape does not name are those of the state before. -/

namespace Sys2Proof.Claims

open Sys2Proof.Machine

/-! ### Next states -/

/-- An `OK` response without data. -/
abbrev okResponse (w : Nat) : Response w := ⟨.ok, 0, 0⟩

/-- `OK`, and nothing changed. -/
def answered (s : State) : State := { s with responses := okResponse _ :: s.responses }

/-- `OK` with data, and nothing changed. -/
def gave (s : State) (d : BitVec s.inst.w) (x : Word) : State :=
  { s with responses := ⟨.ok, d, x⟩ :: s.responses }

/-- `OK`, value register `rd` and `FLAGS` written, and nothing else changed. -/
def wroteV (s : State) (rd : Reg) (a : Value s.inst.w s.inst.n) (flags : Word) : State :=
  { s with v := s.v.set rd a, flags := flags, responses := okResponse _ :: s.responses }

/-- `OK`, exponent register `xr` and `FLAGS` written, and nothing else changed. -/
def wroteX (s : State) (xr : Reg) (e : Word) (flags : Word) : State :=
  { s with x := s.x.set xr e, flags := flags, responses := okResponse _ :: s.responses }

/-- `OK`, `FLAGS` written, and nothing else changed. -/
def wroteF (s : State) (flags : Word) : State :=
  { s with flags := flags, responses := okResponse _ :: s.responses }

/-- `k` commands answered `OK` without data, after which value register `rd` holds `a` and nothing else has
changed. -/
def leavesV (k : Nat) (s : State) (rd : Reg) (a : Value s.inst.w s.inst.n) : State :=
  { s with v := s.v.set rd a, responses := List.replicate k (okResponse _) ++ s.responses }

/-- `FAULT` while a fault is active: bit 0 `ACTIVE`, bits 7:4 the code of the cause, the rest zero. -/
def faultRegister (c : Cause) : Word :=
  match c with
  | .overflow => 0x11
  | .divZero => 0x21
  | .logZero => 0x31
  | .illegal => 0x41
  | .index => 0x51

/-- The response `FAULT` without data, the cause and the command word recorded, and nothing else changed. -/
def faulted (s : State) (c : Cause) : State :=
  { s with
    fault := faultRegister c
    fcmd := s.request.cmd
    responses := ⟨.fault, 0, 0⟩ :: s.responses }

/-- The unit has taken a request off the host's list. -/
def taken (s : State) (req : Request s.inst.w) (rest : List (HostMove s.inst.w)) : State :=
  { s with inputs := rest, request := req }

/-- The word is `RCS` or `FCLR` by its opcode. -/
def rcsOrFclr (cmd : Word) : Prop := cmd.toNat % 256 = 7 ∨ cmd.toNat % 256 = 8

/-! ### Numbers -/

/-- `val(V[r])`. -/
abbrev uA (s : State) (r : Reg) : Nat := (s.reg r).val

/-- `sval(V[r])`. -/
abbrev sA (s : State) (r : Reg) : Int := sval (s.reg r)

/-- `X[r]` as a number. -/
abbrev eX (s : State) (r : Reg) : Nat := (s.expo r).toNat

/-- `M = 2^BITS`. -/
abbrev mN (s : State) : Nat := 2 ^ s.inst.bits

/-- `H = 2^(BITS-1)`. -/
abbrev hN (s : State) : Nat := 2 ^ (s.inst.bits - 1)

/-- `dig(v mod M)`. -/
abbrev num (s : State) (v : Nat) : Value s.inst.w s.inst.n := dig s.inst.w s.inst.n (v % mN s)

/-- The digits of an integer wrapped into `[-H, H)`: `dig` of its residue modulo `M`. -/
abbrev snum (s : State) (v : Int) : Value s.inst.w s.inst.n :=
  dig s.inst.w s.inst.n (v % (mN s : Int)).toNat

/-- An integer is outside the signed range. -/
abbrev outOfRange (s : State) (v : Int) : Prop := v < -(hN s : Int) ∨ (hN s : Int) ≤ v

/-- The signed bound on the side of an integer: `SMIN` below zero, else `SMAX`. -/
abbrev signedBound (s : State) (v : Int) : Value s.inst.w s.inst.n :=
  if v < 0 then snum s (-(hN s : Int)) else snum s ((hN s : Int) - 1)

/-- A shift amount as it is applied: itself below `BITS`, else reduced as `SHIFT_WRAP` says. -/
def shiftAmount (i : Instance) (e : Nat) : Nat :=
  if e < i.bits then e
  else if i.shiftWrap = .mod then e % i.bits else e &&& (i.bits - 1)

/-! ### The variants of an operation -/

/-- The wrapping, checked, overflowing and default forms of an operation with wrapped result `w` and
overflow condition `o`. -/
def FourForms (s : State) (rd : Reg) (w : Value s.inst.w s.inst.n) (o : Prop) [Decidable o]
    (iW iC iO iD : Instr) : Prop :=
  exec iW s = .next (wroteV s rd w s.flags) ∧
  (o → exec iC s = .next (wroteF s (putNone true s.flags))) ∧
  (¬o → exec iC s = .next (wroteV s rd w (putNone false s.flags))) ∧
  exec iO s = .next (wroteV s rd w (putOvf (decide o) s.flags)) ∧
  (s.checked = true → o → exec iD s = .next (faulted s .overflow)) ∧
  (s.checked = false ∨ ¬o → exec iD s = .next (wroteV s rd w s.flags))

/-- The five forms of an operation: the four, and the saturating form with bound `b`. -/
def FiveForms (s : State) (rd : Reg) (w : Value s.inst.w s.inst.n) (o : Prop) [Decidable o]
    (b : Value s.inst.w s.inst.n) (iW iC iO iS iD : Instr) : Prop :=
  FourForms s rd w o iW iC iO iD ∧
  (o → exec iS s = .next (wroteV s rd b s.flags)) ∧
  (¬o → exec iS s = .next (wroteV s rd w s.flags))

/-- The wrapping, checked, overflowing and default forms of an operation that cannot overflow. -/
def FourExact (s : State) (rd : Reg) (w : Value s.inst.w s.inst.n) (iW iC iO iD : Instr) : Prop :=
  exec iW s = .next (wroteV s rd w s.flags) ∧
  exec iC s = .next (wroteV s rd w (putNone false s.flags)) ∧
  exec iO s = .next (wroteV s rd w (putOvf false s.flags)) ∧
  exec iD s = .next (wroteV s rd w s.flags)

/-! ### Observations -/

/-- Commands executed one after another, each on the state the one before left. -/
def execList (is : List Instr) (s : State) : Result :=
  match is with
  | [] => .next s
  | i :: rest =>
    match exec i s with
    | .next t => execList rest t
    | .fault f => .fault f
    | .refused r => .refused r

/-- The responses the host has received, the newest first: status, data-out digit, data-out exponent. -/
def log (s : State) : List (Status × Nat × Word) :=
  s.responses.map fun r => (r.status, r.doutD.toNat, r.doutX)

/-- The status of the newest response. -/
def lastStatus (s : State) : Option Status := s.responses.head?.map (·.status)

/-- A move of the host is a command. -/
def isCommand {w : Nat} (m : HostMove w) : Bool :=
  match m with
  | .command _ => true
  | .reset => false
  | .strap _ => false

/-- A result with the data-in values of the request forgotten. -/
def forgetData (r : Result) : Result :=
  match r with
  | .next t => .next { t with request := ⟨t.request.cmd, 0, 0⟩ }
  | .fault f => .fault f
  | .refused f => .refused f

/-- The bits of `FLAGS` a command's rule names under "Flags written": bit 1 `NONE` under C, bit 0 `OVF`
under O, bit 2 `T` for a test, bits 4:3 `ORD` for a comparison, none for any other command. -/
def flagBits (i : Instr) : List Nat :=
  match i with
  | .shlC .. | .shrC .. | .shrCS .. | .addC .. | .addCS .. | .subC .. | .subCS .. | .mulC .. | .mulCS ..
  | .divC .. | .divCS .. | .remC .. | .remCS .. | .diveC .. | .diveCS .. | .remeC .. | .remeCS ..
  | .log2C .. | .npotC .. | .negCS .. | .absCS .. => [1]
  | .shlO .. | .shrO .. | .shrOS .. | .addO .. | .addOS .. | .subO .. | .subOS .. | .mulO .. | .mulOS ..
  | .divO .. | .divOS .. | .remO .. | .remOS .. | .diveO .. | .diveOS .. | .remeO .. | .remeOS ..
  | .npotO .. | .negOS .. | .absOS .. => [0]
  | .eq .. | .isz .. | .isone .. | .isp2 .. | .isneg .. | .bit .. => [2]
  | .cmp .. | .cmpS .. => [3, 4]
  | _ => []

/-- The checked form of every operation that has one. -/
def checkedForms (rd a b xr : Reg) : List Instr :=
  [.shlC rd a xr, .shrC rd a xr, .shrCS rd a xr, .addC rd a b, .addCS rd a b, .subC rd a b,
    .subCS rd a b, .mulC rd a b, .mulCS rd a b, .divC rd a b, .divCS rd a b, .remC rd a b, .remCS rd a b,
    .diveC rd a b, .diveCS rd a b, .remeC rd a b, .remeCS rd a b, .log2C xr a, .npotC rd a, .negCS rd a,
    .absCS rd a]

/-- The checked division and remainder commands. -/
def checkedDivisions (rd a b : Reg) : List Instr :=
  [.divC rd a b, .divCS rd a b, .remC rd a b, .remCS rd a b, .diveC rd a b, .diveCS rd a b,
    .remeC rd a b, .remeCS rd a b]

/-- Every other division and remainder command: W, O, S and D, both families. -/
def uncheckedDivisions (rd a b : Reg) : List Instr :=
  [.divW rd a b, .divO rd a b, .divSat rd a b, .div rd a b, .divWS rd a b, .divOS rd a b,
    .divSatS rd a b, .divS rd a b, .remW rd a b, .remO rd a b, .rem rd a b, .remWS rd a b, .remOS rd a b,
    .remS rd a b, .diveW rd a b, .diveO rd a b, .diveSat rd a b, .dive rd a b, .diveWS rd a b,
    .diveOS rd a b, .diveSatS rd a b, .diveS rd a b, .remeW rd a b, .remeO rd a b, .reme rd a b,
    .remeWS rd a b, .remeOS rd a b, .remeS rd a b]

end Sys2Proof.Claims

section Statements

open Sys2Proof Sys2Proof.Machine Sys2Proof.Claims

/-! ### Encoding -/

/-- Every command that has an encoding, with every operand, decodes from its word to itself (R78, R81). -/
def Obligations.EncodedCommandDecodesBack : Prop :=
  ∀ i : Instr, i.wellFormed = true → decode (encode i) = .ok i

/-- A word that decodes is the encoding of the well-formed command it decodes to, so no two words are the
same command and no bit of a legal word is ignored (R79, R81). -/
def Obligations.DecodedWordIsItsEncoding : Prop :=
  ∀ (w : Word) (i : Instr), decode w = .ok i → i.wellFormed = true ∧ encode i = w

/-- Command words the spec writes out decode to the commands it says (R81, R120 to R128, and
`95_test_vectors.md`), and words of each kind R79 lists do not decode: an opcode outside the map; a
must-be-zero bit of each format; an unused register field; a `VAR` that is reserved, that the opcode does
not list, or that a command without variants carries; a `SGN` the opcode does not list, with `VAR` or at
all; `LDS` with an index; `RCS` with a register; `RCS` with a number above 6. That the decoder tells the
checks apart, and the names it gives them, are the model's choice (log 22). -/
def Obligations.SpecWordsDecode : Prop :=
  (∀ p ∈ ([(0x00000000, .nop), (0x0000A001, .mov 2 1), (0x00031002, .ldd 1 3), (0x00031003, .std 1 3),
      (0x00002004, .lds 2), (0x00200005, .ldx 1), (0x00000006, .stx 0), (0x00030007, .rcs 3),
      (0x00000008, .fclr), (0x00088810, .cmpS 1 2), (0x00008014, .isp2 1), (0x00008016, .blen 0 1),
      (0x0020A420, .shl 2 1 1), (0x0020AC21, .shrS 2 1 1), (0x0020A022, .rotl 2 1 1),
      (0x00008024, .clz 0 1), (0x0008B230, .addO 3 1 2), (0x0008B433, .div 3 1 2),
      (0x0008BC35, .diveS 3 1 2), (0x0008B037, .gcd 3 1 2), (0x00008138, .log2C 0 1),
      (0x0000A239, .npotO 2 1), (0x0000AC40, .negS 2 1)] : List (Word × Instr)),
    decode p.1 = .ok p.2) ∧
  (∀ p ∈ ([(0x000000FF, .unknownOpcode), (0x00000009, .unknownOpcode), (0x0108B430, .mustBeZero),
      (0x00008002, .mustBeZero), (0x00000102, .mustBeZero), (0x00000100, .mustBeZero),
      (0x00000108, .mustBeZero), (0x0028B430, .mustBeZero), (0x0008B530, .variant),
      (0x0020A320, .variant), (0x0000A101, .variant), (0x0020AC20, .sign), (0x0000A441, .sign),
      (0x0000A140, .sign), (0x00012004, .mustBeZero), (0x00001007, .mustBeZero),
      (0x00070007, .operand)] :
        List (Word × Illegal)),
    decode p.1 = .error p.2)

/-! ### The transaction -/

/-- A step whose next move is a command takes the request and runs the command its word decodes to, when no
fault is active or the word is `RCS` or `FCLR` (R312). -/
def Obligations.StepRunsDecodedCommand : Prop :=
  ∀ (s : State) (req : Request s.inst.w) (rest : List (HostMove s.inst.w)) (i : Instr),
    s.inputs = .command req :: rest → decode req.cmd = .ok i →
      s.faultOutput = false ∨ rcsOrFclr req.cmd → step s = exec i (taken s req rest)

/-- A word that is the encoding of no well-formed command raises `Illegal` when no fault is active (R79). -/
def Obligations.WordWithoutCommandRaisesIllegal : Prop :=
  ∀ (s : State) (req : Request s.inst.w) (rest : List (HostMove s.inst.w)),
    s.inputs = .command req :: rest → s.faultOutput = false →
      (∀ i : Instr, i.wellFormed = true → encode i ≠ req.cmd) →
        step s = .next (faulted (taken s req rest) .illegal)

/-- While a fault is active every word but `RCS` and `FCLR`, told by its low byte alone, is answered
`REJECTED` and changes no register; a word that is one of the two by its low byte is decoded and executed
(R306). -/
def Obligations.RejectionWhileFaultActive : Prop :=
  ∀ (s : State) (req : Request s.inst.w) (rest : List (HostMove s.inst.w)),
    s.inputs = .command req :: rest → s.faultOutput = true →
      (¬rcsOrFclr req.cmd →
        step s = .next { taken s req rest with responses := ⟨.rejected, 0, 0⟩ :: s.responses }) ∧
      (rcsOrFclr req.cmd → ∀ i, decode req.cmd = .ok i → step s = exec i (taken s req rest))

/-- While a fault is active only `RCS` and `FCLR` execute; a malformed one of the two enters the fault
`Illegal` again, overwriting cause and command, with the fault still active; a well-formed one answers `OK`;
and `FCLR` clears the fault (R307). -/
def Obligations.MalformedWhileFaultActive : Prop :=
  ∀ (s : State) (req : Request s.inst.w) (rest : List (HostMove s.inst.w)),
    s.inputs = .command req :: rest → s.faultOutput = true →
      (¬rcsOrFclr req.cmd → ∃ t, step s = .next t ∧ lastStatus t = some .rejected) ∧
      (rcsOrFclr req.cmd → (∀ i : Instr, i.wellFormed = true → encode i ≠ req.cmd) →
        step s = .next (faulted (taken s req rest) .illegal) ∧
          (faulted (taken s req rest) .illegal).faultOutput = true) ∧
      (rcsOrFclr req.cmd → ∀ i : Instr, i.wellFormed = true → encode i = req.cmd →
        ∃ t, step s = .next t ∧ lastStatus t = some .ok) ∧
      (req.cmd = 0x00000008 →
        step s = .next (answered { taken s req rest with fault := 0, fcmd := 0 }))

/-- A command answered `FAULT` has recorded a cause and its own word, has raised the output `fault`, and has
changed nothing else (R304). -/
def Obligations.FaultEntry : Prop :=
  ∀ (s t : State) (req : Request s.inst.w) (rest : List (HostMove s.inst.w)),
    s.inputs = .command req :: rest → step s = .next t → lastStatus t = some .fault →
      ∃ c : Cause,
        t = { taken s req rest with
              fault := faultRegister c
              fcmd := req.cmd
              responses := ⟨.fault, 0, 0⟩ :: s.responses } ∧
        t.faultOutput = true ∧ faultCause t.fault = causeCode c

/-- A command that faults, followed by `FCLR`, leaves every register as the faulting command found it and no
fault active; issued again it faults again with the same cause (R308). -/
def Obligations.FaultThenClearRestoresNothing : Prop :=
  ∀ (s t : State) (req clr : Request s.inst.w) (rest : List (HostMove s.inst.w)),
    s.inputs = .command req :: .command clr :: .command req :: rest →
      s.faultOutput = false → clr.cmd = 0x00000008 → step s = .next t → lastStatus t = some .fault →
        Sys2Proof.core.run 2 s = .next
          ({ s with
              inputs := .command req :: rest
              request := clr
              fault := 0
              fcmd := 0
              responses := okResponse _ :: ⟨.fault, 0, 0⟩ :: s.responses } : State) ∧
        ∃ u : State, Sys2Proof.core.run 3 s = .next u ∧ lastStatus u = some .fault ∧
          u.fault = t.fault ∧ u.fcmd = t.fcmd

/-- Every transaction goes on to a next state with exactly one response more; a response that is not `OK`
carries no data, and only `STD` answers a digit and only `STX` and `RCS` a 32-bit word (R71). -/
def Obligations.EveryTransactionIsAnsweredOnce : Prop :=
  ∀ (s : State) (req : Request s.inst.w) (rest : List (HostMove s.inst.w)),
    s.inputs = .command req :: rest →
      ∃ (t : State) (status : Status) (d : Nat) (x : Word),
        step s = .next t ∧ log t = (status, d, x) :: log s ∧ t.inputs.length = rest.length ∧
        (status ≠ .ok → d = 0 ∧ x = 0) ∧
        (d ≠ 0 → ∃ r idx, decode req.cmd = .ok (.std r idx)) ∧
        (x ≠ 0 → (∃ xr, decode req.cmd = .ok (.stx xr)) ∨ ∃ idx, decode req.cmd = .ok (.rcs idx))

/-- A run over all the host's moves ends in a next state, with no move left and one response for each
command (R350, R353; the list of moves and the record of responses are the model's, log 6 and log 8). -/
def Obligations.RunAnswersEveryCommand : Prop :=
  ∀ s : State, ∃ t : State, Sys2Proof.core.run s.inputs.length s = .next t ∧ t.inputs.length = 0 ∧
    t.responses.length = s.responses.length + s.inputs.countP isCommand

/-- The data-in values are read by `LDD` and `LDS` (the digit) and `LDX` (the exponent) only (R70). -/
def Obligations.DataInReadByLoadsOnly : Prop :=
  ∀ (i : Instr) (s : State) (d : BitVec s.inst.w) (x : Word),
    match i with
    | .ldd .. | .lds .. =>
      forgetData (exec i { s with request := { s.request with dinX := x } }) = forgetData (exec i s)
    | .ldx .. =>
      forgetData (exec i { s with request := { s.request with dinD := d } }) = forgetData (exec i s)
    | _ =>
      forgetData (exec i { s with request := { s.request with dinD := d, dinX := x } }) =
        forgetData (exec i s)

/-! ### Reset, the host's other moves, and the control registers -/

/-- The host's moves beside a command. With no move to come the unit stays idle (log 6). A reset clears
`FLAGS`, `FAULT` and `FCMD`, samples the strap into `CFG`, keeps the parameters, lowers the output `fault`
and gives no response (R330, R331). A strap level changes nothing else until the next reset (R331). -/
def Obligations.HostMovesBesideCommands : Prop :=
  ∀ (s : State) (rest : List (HostMove s.inst.w)),
    (s.inputs = [] → step s = .next s) ∧
    (s.inputs = .reset :: rest →
      ∃ t : State, step s = .next t ∧ t.flags = 0 ∧ t.fault = 0 ∧ t.fcmd = 0 ∧
        t.cfg = (if s.strap then 1 else 0) ∧ t.faultOutput = false ∧ t.inst = s.inst ∧
        t.strap = s.strap ∧ log t = log s ∧ t.inputs.length = rest.length) ∧
    (∀ level : Bool, s.inputs = .strap level :: rest →
      step s = .next { s with inputs := rest, strap := level })

/-- After the reset that begins a run, whatever the instance, the strap and the contents of the value and
exponent registers, `RCS` reads 0 from `FLAGS`, `FAULT` and `FCMD`, the strap from `CFG`, and `W`, `N` and
`N*W` from the parameters (R29, R40). -/
def Obligations.PowerOnControlRegisters : Prop :=
  ∀ (inst : Instance) (checked : Bool) (v : Vector (Value inst.w inst.n) 8) (x : Vector Word 8)
    (inputs : List (HostMove inst.w)),
    (State.powerOn inst checked v x inputs).faultOutput = false ∧
    (∀ k : Nat, k < 7 →
      exec (.rcs (BitVec.ofNat 16 k)) (State.powerOn inst checked v x inputs) =
        .next (gave (State.powerOn inst checked v x inputs) 0
          (BitVec.ofNat 32 ([0, 0, 0, checked.toNat, inst.w, inst.n, inst.n * inst.w].getD k 0))))

/-- The state after reset has well-formed control registers. Its register contents and its strap level are
the model's choice (log 1, log 2, log 5); nothing is said of them. -/
def Obligations.ResetStateWellFormed : Prop :=
  State.reset.Inv

/-- Every step keeps the control registers well formed: `FLAGS` has bits 31:5 clear and `ORD` is not 3;
`FAULT` and `FCMD` are both 0 or `FAULT` is the word of one of the five causes; `CFG` has bits 31:1
clear. -/
def Obligations.StepKeepsControlRegistersWellFormed : Prop :=
  ∀ s t : State, s.Inv → step s = .next t → t.Inv

/-- Only a reset changes `CFG`, and no step changes the instance (R35, R311, R331; that the instance is a
field of the state is the model's choice, log 4). -/
def Obligations.OnlyResetChangesCfg : Prop :=
  ∀ s t : State, step s = .next t →
    t.inst = s.inst ∧ (s.inputs.head? ≠ some .reset → t.cfg = s.cfg)

/-- What writing one field of `FLAGS` does to every bit of the word: the field is written and every other
bit keeps its value (R23). -/
def Obligations.FlagWritesTouchOneField : Prop :=
  ∀ (f : Word) (b : Bool) (o : Ordering) (k : Nat),
    (putOvf b f).getLsbD k = (if k = 0 then b else f.getLsbD k) ∧
    (putNone b f).getLsbD k = (if k = 1 then b else f.getLsbD k) ∧
    (putT b f).getLsbD k = (if k = 2 then b else f.getLsbD k) ∧
    (putOrd (ordCode o) f).getLsbD k =
      (if k = 3 then o == .eq else if k = 4 then o == .gt else f.getLsbD k)

/-- A command writes only the fields of `FLAGS` its rule names; a command that faults or is rejected writes
none (R24). -/
def Obligations.CommandsWriteOnlyTheirFlags : Prop :=
  ∀ (s t : State) (req : Request s.inst.w) (rest : List (HostMove s.inst.w)),
    s.inputs = .command req :: rest → step s = .next t →
      (lastStatus t ≠ some .ok → t.flags = s.flags) ∧
      ∀ i, decode req.cmd = .ok i → ∀ k, k ∉ flagBits i → t.flags.getLsbD k = s.flags.getLsbD k

/-- A checked form never faults: it answers `OK` and leaves `FAULT` and `FCMD` alone (R102, R109). -/
def Obligations.CheckedFormsNeverFault : Prop :=
  ∀ (s : State) (rd a b xr : Reg), ∀ i ∈ checkedForms rd a b xr,
    ∃ t : State, exec i s = .next t ∧ log t = (.ok, 0, 0) :: log s ∧ t.fault = s.fault ∧
      t.fcmd = s.fcmd

/-! ### Data movement and control -/

/-- `NOP` does nothing but answer; `MOV` copies a register (R120, R121). -/
def Obligations.NopAndMove : Prop :=
  ∀ (s : State) (rd rs : Reg),
    exec .nop s = .next (answered s) ∧
    exec (.mov rd rs) s = .next (wroteV s rd (s.reg rs) s.flags)

/-- `LDD` writes the digit its index names and leaves the others; `STD` answers the digit its index names
and writes nothing; both raise `Index` at an index of `N` or more (R122, R123). -/
def Obligations.LoadAndStoreDigit : Prop :=
  ∀ (s : State) (r : Reg) (idx : DigitIdx),
    (idx.toNat < s.inst.n →
      (∃ a : Value s.inst.w s.inst.n, exec (.ldd r idx) s = .next (wroteV s r a s.flags) ∧
        ∀ k, digitAt a k = if k = idx.toNat then s.request.dinD else digitAt (s.reg r) k) ∧
      exec (.std r idx) s = .next (gave s (digitAt (s.reg r) idx.toNat) 0)) ∧
    (s.inst.n ≤ idx.toNat →
      exec (.ldd r idx) s = .next (faulted s .index) ∧
      exec (.std r idx) s = .next (faulted s .index))

/-- `LDS` loads the value of the data-in digit, zero-extended (R124); `LDX` loads the data-in exponent and
`STX` answers an exponent register (R125, R126). -/
def Obligations.LoadSmallAndExponents : Prop :=
  ∀ (s : State) (r : Reg),
    exec (.lds r) s = .next (wroteV s r (num s s.request.dinD.toNat) s.flags) ∧
    exec (.ldx r) s = .next (wroteX s r s.request.dinX s.flags) ∧
    exec (.stx r) s = .next (gave s 0 (s.expo r))

/-- `RCS` answers the control register its number names and writes nothing; the parameter registers read
`W`, `N` and `N*W`; `FCLR` clears `FAULT` and `FCMD` and nothing else (R29, R36, R127, R128). -/
def Obligations.ReadControlAndClearFault : Prop :=
  ∀ s : State,
    exec (.rcs 0) s = .next (gave s 0 s.flags) ∧
    exec (.rcs 1) s = .next (gave s 0 s.fault) ∧
    exec (.rcs 2) s = .next (gave s 0 s.fcmd) ∧
    exec (.rcs 3) s = .next (gave s 0 s.cfg) ∧
    exec (.rcs 4) s = .next (gave s 0 (BitVec.ofNat 32 s.inst.w)) ∧
    exec (.rcs 5) s = .next (gave s 0 (BitVec.ofNat 32 s.inst.n)) ∧
    exec (.rcs 6) s = .next (gave s 0 (BitVec.ofNat 32 (s.inst.n * s.inst.w))) ∧
    exec .fclr s = .next (answered { s with fault := 0, fcmd := 0 })

/-- Writing digits 0 to `N-1` of a literal with `LDD` and reading them back with `STD`, in that order, gives
the same `N` digits in the same order, and changes no other register (R51, R83). -/
def Obligations.LoadedLiteralReadsBack : Prop :=
  ∀ (s : State) (r : Reg) (v : Nat), s.faultOutput = false → s.inputs = [] →
    ∃ req : Request s.inst.w,
      Sys2Proof.core.run (2 * s.inst.n)
        (s.issue ((Pseudo.ldv r v).expand s.inst ++ (Pseudo.stv r).expand s.inst)) = .next
          ({ s with
              v := s.v.set r (dig s.inst.w s.inst.n v)
              request := req
              responses :=
                ((List.range s.inst.n).reverse.map fun i =>
                  (⟨.ok, digitAt (dig s.inst.w s.inst.n v) i, 0⟩ : Response s.inst.w)) ++
                List.replicate s.inst.n (okResponse _) ++ s.responses } : State)

/-- The constants the pseudo-instructions load: 0, 1, `UMAX`, `SMIN`, `SMAX` (R83). -/
def Obligations.PseudoInstructionsLoadConstants : Prop :=
  ∀ (s : State) (r : Reg), s.faultOutput = false → s.inputs = [] →
    ∀ p ∈ [(Pseudo.clr r, 0), (Pseudo.set1 r, 1), (Pseudo.ldmax r, mN s - 1), (Pseudo.ldsmin r, hN s),
        (Pseudo.ldsmax r, hN s - 1)],
      ∃ req : Request s.inst.w,
        Sys2Proof.core.run (p.1.expand s.inst).length (s.issue (p.1.expand s.inst)) =
          .next (leavesV (p.1.expand s.inst).length { s with request := req } r (num s p.2))

/-! ### Comparison and tests -/

/-- Equality is equality of every digit, which is equality of the numbers under either reading (R140). -/
def Obligations.EqualityIsDigitWise : Prop :=
  ∀ (i : Instance) (a b : Value i.w i.n),
    (eqN a b = true ↔ ∀ k, k < i.n → digitAt a k = digitAt b k) ∧
    (eqN a b = true ↔ a.val = b.val) ∧
    (eqN a b = true ↔ sval a = sval b)

/-- The comparison is decided at the highest digit where the operands differ, digits compared as unsigned
numbers, and orders the operands as their values are ordered (R141). -/
def Obligations.ComparisonFollowsDigitsAndValues : Prop :=
  ∀ (i : Instance) (a b : Value i.w i.n),
    (∀ k, k < i.n → (∀ j, k < j → j < i.n → digitAt a j = digitAt b j) →
      ((digitAt a k).toNat < (digitAt b k).toNat → cmpN a b = .lt) ∧
      ((digitAt b k).toNat < (digitAt a k).toNat → cmpN a b = .gt)) ∧
    ((∀ k, k < i.n → digitAt a k = digitAt b k) → cmpN a b = .eq) ∧
    cmpN a b = compare a.val b.val

/-- `CMP` writes the order of the unsigned values to `FLAGS.ORD` and `CMP.S` that of the signed values
(R142, R143). -/
def Obligations.CompareCommands : Prop :=
  ∀ (s : State) (a b : Reg),
    exec (.cmp a b) s = .next (wroteF s (putOrd (ordCode (compare (uA s a) (uA s b))) s.flags)) ∧
    exec (.cmpS a b) s = .next (wroteF s (putOrd (ordCode (compare (sA s a) (sA s b))) s.flags))

/-- The tests write to `FLAGS.T` whether the values are equal (`EQ`), zero (`ISZ`), one (`ISONE`), a power
of two (`ISP2`) or negative (`ISNEG`) (R144 to R148). -/
def Obligations.TestCommands : Prop :=
  ∀ (s : State) (a b : Reg),
    exec (.eq a b) s = .next (wroteF s (putT (decide (uA s a = uA s b)) s.flags)) ∧
    exec (.isz a) s = .next (wroteF s (putT (decide (uA s a = 0)) s.flags)) ∧
    exec (.isone a) s = .next (wroteF s (putT (decide (uA s a = 1)) s.flags)) ∧
    (∃ p : Bool, exec (.isp2 a) s = .next (wroteF s (putT p s.flags)) ∧
      (p = true ↔ ∃ k, k < s.inst.bits ∧ uA s a = 2 ^ k)) ∧
    exec (.isneg a) s = .next (wroteF s (putT (decide (sA s a < 0)) s.flags))

/-- `BLEN` writes the least `k` with the value below `2^k` (R149); `BIT` writes the bit its exponent names
to `FLAGS.T`, or raises `Index` when there is none (R150). -/
def Obligations.BitLengthAndBitTest : Prop :=
  ∀ (s : State) (a xr : Reg),
    (∃ k : Nat, k ≤ s.inst.bits ∧ exec (.blen xr a) s = .next (wroteX s xr (BitVec.ofNat 32 k) s.flags) ∧
      uA s a < 2 ^ k ∧ ∀ j, uA s a < 2 ^ j → k ≤ j) ∧
    (eX s xr < s.inst.bits →
      exec (.bit a xr) s = .next (wroteF s (putT ((uA s a).testBit (eX s xr)) s.flags))) ∧
    (s.inst.bits ≤ eX s xr → exec (.bit a xr) s = .next (faulted s .index))

/-! ### Shifts and rotates -/

/-- `SHL`: the value times `2^e'` modulo `2^BITS` for the applied amount `e'`, with overflow exactly at an
amount of `BITS` or more; four variants (R163, R164). -/
def Obligations.LeftShift : Prop :=
  ∀ (s : State) (rd a xr : Reg),
    FourForms s rd (num s (uA s a * 2 ^ shiftAmount s.inst (eX s xr))) (s.inst.bits ≤ eX s xr)
      (.shlW rd a xr) (.shlC rd a xr) (.shlO rd a xr) (.shl rd a xr)

/-- `SHR`: the unsigned value divided by `2^e'`, and `SHR.S`: the signed value divided by `2^e'` and rounded
down, with overflow exactly at an amount of `BITS` or more; four variants each (R163, R165, R166). -/
def Obligations.RightShifts : Prop :=
  ∀ (s : State) (rd a xr : Reg),
    FourForms s rd (num s (uA s a / 2 ^ shiftAmount s.inst (eX s xr))) (s.inst.bits ≤ eX s xr)
      (.shrW rd a xr) (.shrC rd a xr) (.shrO rd a xr) (.shr rd a xr) ∧
    FourForms s rd (snum s (sA s a / 2 ^ shiftAmount s.inst (eX s xr))) (s.inst.bits ≤ eX s xr)
      (.shrWS rd a xr) (.shrCS rd a xr) (.shrOS rd a xr) (.shrS rd a xr)

/-- `ROTL` and `ROTR` move bit `k` to bit `k + e` and back, taken modulo `BITS`, for any amount, and write
no flag (R167 to R169). -/
def Obligations.Rotates : Prop :=
  ∀ (s : State) (rd a xr : Reg),
    (∃ r : Value s.inst.w s.inst.n, exec (.rotl rd a xr) s = .next (wroteV s rd r s.flags) ∧
      ∀ k, k < s.inst.bits →
        r.val.testBit ((k + eX s xr) % s.inst.bits) = (uA s a).testBit k) ∧
    (∃ r : Value s.inst.w s.inst.n, exec (.rotr rd a xr) s = .next (wroteV s rd r s.flags) ∧
      ∀ k, k < s.inst.bits →
        r.val.testBit k = (uA s a).testBit ((k + eX s xr) % s.inst.bits))

/-- The laws of the shifter: rotates undo each other; shifts by 0 return the source; an amount of `BITS` or
more overflows; a right shift undoes a left shift but for the top bits (R170). -/
def Obligations.ShiftAndRotateLaws : Prop :=
  ∀ (s : State) (rd a xr : Reg),
    (execList [.rotl rd a xr, .rotr rd rd xr] s = .next (leavesV 2 s rd (s.reg a)) ∧
      execList [.rotr rd a xr, .rotl rd rd xr] s = .next (leavesV 2 s rd (s.reg a))) ∧
    (eX s xr = 0 →
      exec (.shlO rd a xr) s = .next (wroteV s rd (s.reg a) (putOvf false s.flags)) ∧
      exec (.shrO rd a xr) s = .next (wroteV s rd (s.reg a) (putOvf false s.flags)) ∧
      exec (.shrOS rd a xr) s = .next (wroteV s rd (s.reg a) (putOvf false s.flags))) ∧
    (s.inst.bits ≤ eX s xr →
      (∀ i ∈ [Instr.shlC rd a xr, .shrC rd a xr, .shrCS rd a xr],
        exec i s = .next (wroteF s (putNone true s.flags))) ∧
      (∀ i ∈ [Instr.shlO rd a xr, .shrO rd a xr, .shrOS rd a xr],
        ∃ r, exec i s = .next (wroteV s rd r (putOvf true s.flags))) ∧
      (s.checked = true → ∀ i ∈ [Instr.shl rd a xr, .shr rd a xr, .shrS rd a xr],
        exec i s = .next (faulted s .overflow))) ∧
    (eX s xr < s.inst.bits →
      execList [.shlW rd a xr, .shrW rd rd xr] s =
        .next (leavesV 2 s rd (num s (uA s a % 2 ^ (s.inst.bits - eX s xr)))))

/-! ### Bit counts, reversal, complement -/

/-- `CLZ`, `CTZ`, `CLO`, `CTO`: `BITS` minus the bit length of the value, the number of trailing zeros with
every power dividing 0, and the same two of the complement (R180 to R185). -/
def Obligations.LeadingAndTrailingCounts : Prop :=
  ∀ (s : State) (xr a : Reg), ∃ lz tz lo ro : Nat,
    exec (.clz xr a) s = .next (wroteX s xr (BitVec.ofNat 32 lz) s.flags) ∧
    exec (.ctz xr a) s = .next (wroteX s xr (BitVec.ofNat 32 tz) s.flags) ∧
    exec (.clo xr a) s = .next (wroteX s xr (BitVec.ofNat 32 lo) s.flags) ∧
    exec (.cto xr a) s = .next (wroteX s xr (BitVec.ofNat 32 ro) s.flags) ∧
    lz ≤ s.inst.bits ∧ tz ≤ s.inst.bits ∧ lo ≤ s.inst.bits ∧ ro ≤ s.inst.bits ∧
    (∀ j, j ≤ s.inst.bits → (j ≤ lz ↔ uA s a < 2 ^ (s.inst.bits - j))) ∧
    (∀ j, j ≤ s.inst.bits → (j ≤ tz ↔ 2 ^ j ∣ uA s a)) ∧
    (∀ j, j ≤ s.inst.bits → (j ≤ lo ↔ mN s - 1 - uA s a < 2 ^ (s.inst.bits - j))) ∧
    (∀ j, j ≤ s.inst.bits → (j ≤ ro ↔ 2 ^ j ∣ mN s - 1 - uA s a))

/-- `CNT1` writes how many of the bits 0 to `BITS-1` are 1, `CNT0` how many are 0 (R186 to R188). -/
def Obligations.PopulationCounts : Prop :=
  ∀ (s : State) (xr a : Reg),
    exec (.cnt1 xr a) s = .next (wroteX s xr
      (BitVec.ofNat 32 ((List.range s.inst.bits).countP fun k => (uA s a).testBit k)) s.flags) ∧
    exec (.cnt0 xr a) s = .next (wroteX s xr
      (BitVec.ofNat 32 ((List.range s.inst.bits).countP fun k => !(uA s a).testBit k)) s.flags)

/-- The identities between the counts of one value, and between the counts of ones of a value and of zeros
of its complement (R189). -/
def Obligations.CountIdentities : Prop :=
  ∀ (s : State) (xr rd a : Reg), ∃ (c1 c0 lz bl tz lo ro : Nat) (t : State),
    (∀ c ∈ [(Instr.cnt1 xr a, c1), (.cnt0 xr a, c0), (.clz xr a, lz), (.blen xr a, bl), (.ctz xr a, tz),
        (.clo xr a, lo), (.cto xr a, ro)],
      exec c.1 s = .next (wroteX s xr (BitVec.ofNat 32 c.2) s.flags) ∧ c.2 < 2 ^ 32) ∧
    c1 + c0 = s.inst.bits ∧
    lz + bl = s.inst.bits ∧
    exec (.not rd a) s = .next t ∧
    exec (.clz xr rd) t = .next (wroteX t xr (BitVec.ofNat 32 lo) t.flags) ∧
    exec (.ctz xr rd) t = .next (wroteX t xr (BitVec.ofNat 32 ro) t.flags) ∧
    (lz = s.inst.bits ↔ s.reg a = zeroV _ _) ∧
    (tz = s.inst.bits ↔ s.reg a = zeroV _ _) ∧
    (lz = 0 ∨ lo = 0)

/-- `SWAPB` reverses the bytes of the value, `REVB` its bits, and `NOT` complements it (R192 to R194). -/
def Obligations.ReversalAndComplement : Prop :=
  ∀ (s : State) (rd a : Reg),
    (∃ r : Value s.inst.w s.inst.n, exec (.swapb rd a) s = .next (wroteV s rd r s.flags) ∧
      ∀ k, k < s.inst.bits / 8 →
        r.val / 2 ^ (8 * k) % 256 = uA s a / 2 ^ (8 * (s.inst.bits / 8 - 1 - k)) % 256) ∧
    (∃ r : Value s.inst.w s.inst.n, exec (.revb rd a) s = .next (wroteV s rd r s.flags) ∧
      ∀ k, k < s.inst.bits → r.val.testBit k = (uA s a).testBit (s.inst.bits - 1 - k)) ∧
    exec (.not rd a) s = .next (wroteV s rd (num s (mN s - 1 - uA s a)) s.flags)

/-! ### Addition, subtraction, multiplication -/

/-- Unsigned `ADD`: the sum modulo `M`, overflow exactly when the sum is `M` or more, bound `UMAX`; five
variants (R202). -/
def Obligations.UnsignedAddition : Prop :=
  ∀ (s : State) (rd a b : Reg),
    FiveForms s rd (num s (uA s a + uA s b)) (mN s ≤ uA s a + uA s b) (num s (mN s - 1))
      (.addW rd a b) (.addC rd a b) (.addO rd a b) (.addSat rd a b) (.add rd a b)

/-- Unsigned `SUB`: the difference modulo `M`, overflow exactly when the minuend is the smaller, bound
`ZERO`; five variants (R203). -/
def Obligations.UnsignedSubtraction : Prop :=
  ∀ (s : State) (rd a b : Reg),
    FiveForms s rd (snum s ((uA s a : Int) - uA s b)) (uA s a < uA s b) (num s 0)
      (.subW rd a b) (.subC rd a b) (.subO rd a b) (.subSat rd a b) (.sub rd a b)

/-- Signed `ADD`: the sum wrapped into the signed range, overflow exactly when it is outside, the bound on
its side; five variants (R204). -/
def Obligations.SignedAddition : Prop :=
  ∀ (s : State) (rd a b : Reg),
    FiveForms s rd (snum s (sA s a + sA s b)) (outOfRange s (sA s a + sA s b))
      (signedBound s (sA s a + sA s b))
      (.addWS rd a b) (.addCS rd a b) (.addOS rd a b) (.addSatS rd a b) (.addS rd a b)

/-- Signed `SUB`: the difference wrapped into the signed range, overflow exactly when it is outside, the
bound on its side; five variants (R205). -/
def Obligations.SignedSubtraction : Prop :=
  ∀ (s : State) (rd a b : Reg),
    FiveForms s rd (snum s (sA s a - sA s b)) (outOfRange s (sA s a - sA s b))
      (signedBound s (sA s a - sA s b))
      (.subWS rd a b) (.subCS rd a b) (.subOS rd a b) (.subSatS rd a b) (.subS rd a b)

/-- The multiplier's accumulator fits `2W` bits, and the low digits and the overflow flag of the schoolbook
loop are those of the mathematical product (R221). -/
def Obligations.MultiplierIsExact : Prop :=
  (∀ (w : Nat) (a b carry r : BitVec w),
    a.toNat * b.toNat + carry.toNat + r.toNat ≤ 2 ^ (2 * w) - 1) ∧
  ∀ (w n : Nat) (a b : Value w n),
    (mulN a b).1.val = a.val * b.val % 2 ^ (n * w) ∧
    ((mulN a b).2 = true ↔ 2 ^ (n * w) ≤ a.val * b.val)

/-- Unsigned `MUL`: the product modulo `M`, overflow exactly when the product is `M` or more, bound `UMAX`;
five variants (R222). -/
def Obligations.UnsignedMultiplication : Prop :=
  ∀ (s : State) (rd a b : Reg),
    FiveForms s rd (num s (uA s a * uA s b)) (mN s ≤ uA s a * uA s b) (num s (mN s - 1))
      (.mulW rd a b) (.mulC rd a b) (.mulO rd a b) (.mulSat rd a b) (.mul rd a b)

/-- Signed `MUL`: the product wrapped into the signed range, overflow exactly when it is outside, the bound
on its side; five variants (R224). -/
def Obligations.SignedMultiplication : Prop :=
  ∀ (s : State) (rd a b : Reg),
    FiveForms s rd (snum s (sA s a * sA s b)) (outOfRange s (sA s a * sA s b))
      (signedBound s (sA s a * sA s b))
      (.mulWS rd a b) (.mulCS rd a b) (.mulOS rd a b) (.mulSatS rd a b) (.mulS rd a b)

/-! ### Division -/

/-- The long division gives the quotient and the remainder of the numbers, for a divisor that is not zero
(R240). -/
def Obligations.DividerIsExact : Prop :=
  ∀ (w n : Nat) (a d : Value w n), d.val ≠ 0 →
    (divRemN a d).1.val = a.val / d.val ∧ (divRemN a d).2.val = a.val % d.val

/-- Unsigned `DIV` and `DIVE` write the quotient, `REM` and `REME` the remainder, and none overflows, for a
divisor that is not zero; all variants (R243 to R246). -/
def Obligations.UnsignedDivision : Prop :=
  ∀ (s : State) (rd a b : Reg), uA s b ≠ 0 →
    FourExact s rd (num s (uA s a / uA s b))
      (.divW rd a b) (.divC rd a b) (.divO rd a b) (.div rd a b) ∧
    exec (.divSat rd a b) s = .next (wroteV s rd (num s (uA s a / uA s b)) s.flags) ∧
    FourExact s rd (num s (uA s a / uA s b))
      (.diveW rd a b) (.diveC rd a b) (.diveO rd a b) (.dive rd a b) ∧
    exec (.diveSat rd a b) s = .next (wroteV s rd (num s (uA s a / uA s b)) s.flags) ∧
    FourExact s rd (num s (uA s a % uA s b))
      (.remW rd a b) (.remC rd a b) (.remO rd a b) (.rem rd a b) ∧
    FourExact s rd (num s (uA s a % uA s b))
      (.remeW rd a b) (.remeC rd a b) (.remeO rd a b) (.reme rd a b)

/-- `DIV.S` writes the quotient rounded toward zero and `REM.S` its remainder, wrapped into the signed
range, for a divisor that is not zero; both overflow exactly at `SMIN` and `MINUS_ONE`, and the bound is
`SMAX`; all variants (R247, R248). -/
def Obligations.SignedTruncatedDivision : Prop :=
  ∀ (s : State) (rd a b : Reg), sA s b ≠ 0 →
    FiveForms s rd (snum s ((sA s a).tdiv (sA s b))) (sA s a = -(hN s : Int) ∧ sA s b = -1)
      (snum s ((hN s : Int) - 1))
      (.divWS rd a b) (.divCS rd a b) (.divOS rd a b) (.divSatS rd a b) (.divS rd a b) ∧
    FourForms s rd (snum s ((sA s a).tmod (sA s b))) (sA s a = -(hN s : Int) ∧ sA s b = -1)
      (.remWS rd a b) (.remCS rd a b) (.remOS rd a b) (.remS rd a b)

/-- `DIVE.S` and `REME.S` write the Euclidean pair, the remainder in `[0, abs(B))`, the quotient wrapped
into the signed range, for a divisor that is not zero; both overflow exactly at `SMIN` and `MINUS_ONE`, and
the bound is `SMAX`; all variants (R249, R250). -/
def Obligations.SignedEuclideanDivision : Prop :=
  ∀ (s : State) (rd a b : Reg), sA s b ≠ 0 →
    ∃ q r : Int, sA s a = q * sA s b + r ∧ 0 ≤ r ∧ r < |sA s b| ∧
    FiveForms s rd (snum s q) (sA s a = -(hN s : Int) ∧ sA s b = -1) (snum s ((hN s : Int) - 1))
      (.diveWS rd a b) (.diveCS rd a b) (.diveOS rd a b) (.diveSatS rd a b) (.diveS rd a b) ∧
    FourForms s rd (snum s r) (sA s a = -(hN s : Int) ∧ sA s b = -1)
      (.remeWS rd a b) (.remeCS rd a b) (.remeOS rd a b) (.remeS rd a b)

/-- With a divisor whose digits are all zero, the checked forms set `NONE` and write no register, and every
other division and remainder command raises `DivZero`, whatever the build mode (R108). -/
def Obligations.DivisionByZero : Prop :=
  ∀ (s : State) (rd a b : Reg), (∀ k, k < s.inst.n → digitAt (s.reg b) k = 0) →
    (∀ i ∈ checkedDivisions rd a b, exec i s = .next (wroteF s (putNone true s.flags))) ∧
    (∀ i ∈ uncheckedDivisions rd a b, exec i s = .next (faulted s .divZero))

/-! ### The two's-complement layer -/

/-- The negator is complement plus one: its value, its signed value but for `SMIN`, and its fixed points,
`ZERO` being the only operand with a carry (R281). -/
def Obligations.NegatorIsExact : Prop :=
  ∀ (i : Instance) (a : Value i.w i.n),
    negN a = (addN (notN a) (oneV _ _) false).1 ∧
    negN a = (addN (notN a) (zeroV _ _) true).1 ∧
    (negN a).val = (2 ^ i.bits - a.val) % 2 ^ i.bits ∧
    (a ≠ sminV _ _ → sval (negN a) = -sval a) ∧
    negN (sminV i.w i.n) = sminV _ _ ∧
    negN (zeroV i.w i.n) = zeroV _ _ ∧
    ((addN (notN a) (oneV _ _) false).2 = true ↔ a = zeroV _ _)

/-- The magnitude of a signed value, `SMIN` included, read as an unsigned value (R223). -/
def Obligations.MagnitudeOfSignedValue : Prop :=
  ∀ (i : Instance) (a : Value i.w i.n),
    uabs a = (if sign a then negN a else a) ∧
    ((uabs a).val : Int) = |sval a| ∧
    negN (sminV i.w i.n) = sminV _ _ ∧
    (sminV i.w i.n).val = 2 ^ (i.bits - 1)

/-- `NEG.W`: the negated unsigned value modulo `M`. `NEG.S` and `ABS.S`: the negated and the absolute signed
value wrapped into the signed range, overflow exactly at `SMIN`, bound `SMAX`; five variants each (R283 to
R285). -/
def Obligations.NegateAndAbsolute : Prop :=
  ∀ (s : State) (rd a : Reg),
    exec (.negW rd a) s = .next (wroteV s rd (num s (mN s - uA s a)) s.flags) ∧
    FiveForms s rd (snum s (-sA s a)) (sA s a = -(hN s : Int)) (snum s ((hN s : Int) - 1))
      (.negWS rd a) (.negCS rd a) (.negOS rd a) (.negSatS rd a) (.negS rd a) ∧
    FiveForms s rd (snum s |sA s a|) (sA s a = -(hN s : Int)) (snum s ((hN s : Int) - 1))
      (.absWS rd a) (.absCS rd a) (.absOS rd a) (.absSatS rd a) (.absS rd a)

/-- The laws of the two's-complement layer: negation undoes itself; a value and its negation add to `ZERO`;
subtraction adds the negation; an absolute value is negative only for `SMIN`; only `SMIN` overflows
(R287). -/
def Obligations.TwosComplementLaws : Prop :=
  ∀ (s : State) (rd a b : Reg),
    execList [.negWS rd a, .negWS rd rd] s = .next (leavesV 2 s rd (s.reg a)) ∧
    (rd ≠ a → execList [.negW rd a, .addW rd a rd] s = .next (leavesV 2 s rd (zeroV _ _))) ∧
    (rd ≠ a → ∃ d, exec (.subW rd a b) s = .next (wroteV s rd d s.flags) ∧
      execList [.negW rd b, .addW rd a rd] s = .next (leavesV 2 s rd d)) ∧
    (∃ w, exec (.absWS rd a) s = .next (wroteV s rd w s.flags) ∧
      (sign w = true ↔ s.reg a = sminV _ _)) ∧
    ∀ i ∈ [Instr.negOS rd a, .absOS rd a], ∃ w, ∃ o : Bool,
      exec i s = .next (wroteV s rd w (putOvf o s.flags)) ∧ (o = true ↔ s.reg a = sminV _ _)

/-! ### GCD, LOG2, NPOT -/

/-- `GCD` writes the greatest common divisor of the values, with 0 a multiple of every number (R260,
R261). -/
def Obligations.GreatestCommonDivisor : Prop :=
  ∀ (s : State) (rd a b : Reg),
    exec (.gcd rd a b) s = .next (wroteV s rd (num s (Nat.gcd (uA s a) (uA s b))) s.flags)

/-- `LOG2` and `LOG2.C` write the index of the highest set bit of a value that is not zero; on zero the
checked form sets `NONE` and the other raises `LogZero`, whatever the build mode (R262, R263). -/
def Obligations.BinaryLogarithm : Prop :=
  ∀ (s : State) (xr a : Reg),
    (uA s a ≠ 0 → ∃ k, k < s.inst.bits ∧ 2 ^ k ≤ uA s a ∧ uA s a < 2 ^ (k + 1) ∧
      exec (.log2C xr a) s = .next (wroteX s xr (BitVec.ofNat 32 k) (putNone false s.flags)) ∧
      exec (.log2 xr a) s = .next (wroteX s xr (BitVec.ofNat 32 k) s.flags)) ∧
    (uA s a = 0 →
      exec (.log2C xr a) s = .next (wroteF s (putNone true s.flags)) ∧
      exec (.log2 xr a) s = .next (faulted s .logZero))

/-- `NPOT`: the least power of two at or above the value, modulo `M`, with overflow exactly when it is `M`
or more; four variants (R264, R265). -/
def Obligations.NextPowerOfTwo : Prop :=
  ∀ (s : State) (rd a : Reg), ∃ k : Nat,
    uA s a ≤ 2 ^ k ∧ (∀ j, uA s a ≤ 2 ^ j → k ≤ j) ∧
    FourForms s rd (num s (2 ^ k)) (mN s ≤ 2 ^ k)
      (.npotW rd a) (.npotC rd a) (.npotO rd a) (.npot rd a)

end Statements
end

