-- ==== Sys2Proof/Laws/Decode.lean ====
section
/-! SUPPORT. The fields of an encoded word: each field of a format reads back what was placed in it. -/

namespace Sys2Proof

/-- The bits of a placed field. -/
theorem getLsbD_placeField {k : Nat} (b : BitVec k) (low i : Nat) :
    (placeField b low).getLsbD i = (decide (i < 32) && decide (low ≤ i) && b.getLsbD (i - low)) := by
  by_cases h : i < 32 <;> by_cases h2 : low ≤ i <;> simp [placeField, h, h2, Nat.not_le.mp]

section FormatR

variable (op : BitVec 8) (var : BitVec 3) (sgn : BitVec 1) (rd rs1 rs2 xr : Reg)

@[simp] theorem opField_encodeR : opField (encodeR op var sgn rd rs1 rs2 xr) = op := by
  ext i hi
  simp only [opField, encodeR, BitVec.getElem_extractLsb', BitVec.getLsbD_or, getLsbD_placeField]
  interval_cases i <;> simp

@[simp] theorem varField_encodeR : varField (encodeR op var sgn rd rs1 rs2 xr) = var := by
  ext i hi
  simp only [varField, encodeR, BitVec.getElem_extractLsb', BitVec.getLsbD_or, getLsbD_placeField]
  interval_cases i <;> simp

@[simp] theorem sgnField_encodeR : sgnField (encodeR op var sgn rd rs1 rs2 xr) = sgn := by
  ext i hi
  simp only [sgnField, encodeR, BitVec.getElem_extractLsb', BitVec.getLsbD_or, getLsbD_placeField]
  interval_cases i; simp

@[simp] theorem regBits_rd_encodeR :
    regBits .rd (encodeR op var sgn rd rs1 rs2 xr) = bitsOfReg rd := by
  ext i hi
  simp only [regBits, regFieldLow, encodeR, BitVec.getElem_extractLsb', BitVec.getLsbD_or,
    getLsbD_placeField]
  interval_cases i <;> simp

@[simp] theorem regBits_rs1_encodeR :
    regBits .rs1 (encodeR op var sgn rd rs1 rs2 xr) = bitsOfReg rs1 := by
  ext i hi
  simp only [regBits, regFieldLow, encodeR, BitVec.getElem_extractLsb', BitVec.getLsbD_or,
    getLsbD_placeField]
  interval_cases i <;> simp

@[simp] theorem regBits_rs2_encodeR :
    regBits .rs2 (encodeR op var sgn rd rs1 rs2 xr) = bitsOfReg rs2 := by
  ext i hi
  simp only [regBits, regFieldLow, encodeR, BitVec.getElem_extractLsb', BitVec.getLsbD_or,
    getLsbD_placeField]
  interval_cases i <;> simp

@[simp] theorem regBits_xr_encodeR :
    regBits .xr (encodeR op var sgn rd rs1 rs2 xr) = bitsOfReg xr := by
  ext i hi
  simp only [regBits, regFieldLow, encodeR, BitVec.getElem_extractLsb', BitVec.getLsbD_or,
    getLsbD_placeField]
  interval_cases i <;> simp

@[simp] theorem topBits_encodeR : (encodeR op var sgn rd rs1 rs2 xr).extractLsb' 24 8 = 0#8 := by
  ext i hi
  simp only [encodeR, BitVec.getElem_extractLsb', BitVec.getLsbD_or, getLsbD_placeField]
  interval_cases i <;> simp

end FormatR

section FormatD

variable (op : BitVec 8) (r : Reg) (idx : DigitIdx)

@[simp] theorem opField_encodeD : opField (encodeD op r idx) = op := by
  ext i hi
  simp only [opField, encodeD, BitVec.getElem_extractLsb', BitVec.getLsbD_or, getLsbD_placeField]
  interval_cases i <;> simp

@[simp] theorem regBits_rd_encodeD : regBits .rd (encodeD op r idx) = bitsOfReg r := by
  ext i hi
  simp only [regBits, regFieldLow, encodeD, BitVec.getElem_extractLsb', BitVec.getLsbD_or,
    getLsbD_placeField]
  interval_cases i <;> simp

@[simp] theorem idxField_encodeD : idxField (encodeD op r idx) = idx := by
  ext i hi
  simp only [idxField, encodeD, BitVec.getElem_extractLsb', BitVec.getLsbD_or, getLsbD_placeField]
  interval_cases i <;> simp

@[simp] theorem lowZeros_encodeD : (encodeD op r idx).extractLsb' 8 4 = 0#4 := by
  ext i hi
  simp only [encodeD, BitVec.getElem_extractLsb', BitVec.getLsbD_or, getLsbD_placeField]
  interval_cases i <;> simp

@[simp] theorem bit15_encodeD : (encodeD op r idx).extractLsb' 15 1 = 0#1 := by
  ext i hi
  simp only [encodeD, BitVec.getElem_extractLsb', BitVec.getLsbD_or, getLsbD_placeField]
  interval_cases i; simp

end FormatD

@[simp] theorem opField_encodeZ (op : BitVec 8) : opField (encodeZ op) = op := by
  ext i hi
  simp only [opField, encodeZ, BitVec.getElem_extractLsb', getLsbD_placeField]
  interval_cases i <;> simp

@[simp] theorem topBits_encodeZ (op : BitVec 8) : (encodeZ op).extractLsb' 8 24 = 0#24 := by
  ext i hi
  simp only [encodeZ, BitVec.getElem_extractLsb', getLsbD_placeField]
  interval_cases i <;> simp

/-- A selector names its register. -/
@[simp] theorem regOfBits_bitsOfReg (r : Reg) : regOfBits (bitsOfReg r) = r := rfl

/-- A register has its selector. -/
@[simp] theorem bitsOfReg_regOfBits (b : BitVec 3) : bitsOfReg (regOfBits b) = b := rfl

end Sys2Proof
end

