-- ==== Sys2Proof/Laws/Digits.lean ====
section
/-! SUPPORT. Values as digit arrays and as numbers: two values with the same digits are equal, a value lies
below `2^BITS`, `dig` gives the array of a number, and the adder and the subtractor are exact. -/

namespace Sys2Proof.Machine

variable {w n : Nat}

/-- Two values with the same digits are equal. -/
theorem value_ext_digits {a b : Value w n} (h : a.digits = b.digits) : a = b := by
  cases a; cases b; cases h; rfl

@[simp] theorem digits_valueOfFn (f : Nat → BitVec w) :
    (valueOfFn n f).digits = (List.range n).map f := rfl

@[simp] theorem digitAt_valueOfFn (f : Nat → BitVec w) (i : Nat) :
    digitAt (valueOfFn n f) i = if i < n then f i else 0 := by
  by_cases h : i < n <;> simp [digitAt, List.getD_eq_getElem?_getD, h]

/-- An index past the top reads 0. -/
theorem digitAt_ge (a : Value w n) {i : Nat} (h : n ≤ i) : digitAt a i = 0 := by
  simp [digitAt, List.getD_eq_getElem?_getD, a.length_digits, h]

/-- Two values equal digit by digit below `N` are equal. -/
theorem value_ext {a b : Value w n} (h : ∀ i, i < n → digitAt a i = digitAt b i) : a = b := by
  apply value_ext_digits
  apply List.ext_getElem (a.length_digits.trans b.length_digits.symm)
  intro i h1 h2
  have := h i (a.length_digits ▸ h1)
  simpa [digitAt, List.getD_eq_getElem?_getD, h1, h2] using this

@[simp] theorem digitAt_replicate (d : BitVec w) (i : Nat) :
    digitAt (Value.replicate n d) i = if i < n then d else 0 := by
  by_cases h : i < n <;> simp [digitAt, Value.replicate, List.getD_eq_getElem?_getD, h]

/-- Writing one digit. -/
theorem digitAt_putDigit (a : Value w n) (i k : Nat) (d : BitVec w) :
    digitAt (putDigit a i d) k = if k = i ∧ i < n then d else digitAt a k := by
  have hl := a.length_digits
  by_cases h : k = i
  · subst h
    by_cases hk : k < n <;> simp [digitAt, putDigit, List.getD_eq_getElem?_getD, hl, hk]
  · simp [digitAt, putDigit, List.getD_eq_getElem?_getD, List.getElem?_set_ne (Ne.symm h), h]

/-- A list of `k` digits stands for a number below `2^(W*k)`. -/
theorem natOfDigits_lt (ds : List (BitVec w)) : natOfDigits ds < 2 ^ (w * ds.length) := by
  induction ds with
  | nil => simp [natOfDigits]
  | cons d ds ih =>
    have hd := d.isLt
    simp only [natOfDigits, List.length_cons, Nat.mul_succ, Nat.pow_add]
    have h : 2 ^ w * (natOfDigits ds + 1) ≤ 2 ^ w * 2 ^ (w * ds.length) := Nat.mul_le_mul_left _ ih
    rw [Nat.mul_add, Nat.mul_one] at h
    rw [Nat.mul_comm (2 ^ (w * ds.length))]
    omega

/-- A value lies below `2^BITS` (R11). -/
theorem val_lt (a : Value w n) : a.val < 2 ^ (n * w) := by
  have h := natOfDigits_lt a.digits
  rw [a.length_digits, Nat.mul_comm] at h
  exact h

/-- A digit list stands for one number only among the lists of its length. -/
theorem natOfDigits_inj {as bs : List (BitVec w)} (hl : as.length = bs.length)
    (h : natOfDigits as = natOfDigits bs) : as = bs := by
  induction as generalizing bs with
  | nil => cases bs with
    | nil => rfl
    | cons b bs => simp at hl
  | cons a as ih =>
    cases bs with
    | nil => simp at hl
    | cons b bs =>
      simp only [natOfDigits] at h
      have h1 : a.toNat = b.toNat := by
        have := congrArg (· % 2 ^ w) h
        simpa [Nat.add_mul_mod_self_left, Nat.mod_eq_of_lt a.isLt, Nat.mod_eq_of_lt b.isLt] using this
      have h2 : natOfDigits as = natOfDigits bs := by
        rw [h1] at h
        exact Nat.eq_of_mul_eq_mul_left (Nat.two_pow_pos w) (Nat.add_left_cancel h)
      rw [BitVec.eq_of_toNat_eq h1, ih (by simpa using hl) h2]

/-- Two values of the same number are equal. -/
theorem val_inj {a b : Value w n} : a.val = b.val ↔ a = b := by
  constructor
  · intro h
    exact value_ext_digits (natOfDigits_inj (a.length_digits.trans b.length_digits.symm) h)
  · rintro rfl
    rfl

/-- The digits of `v`, least significant first, stand for `v` modulo `2^(W*k)`. -/
theorem natOfDigits_shift (k v : Nat) :
    natOfDigits ((List.range k).map fun i => BitVec.ofNat w (v >>> (w * i))) = v % 2 ^ (w * k) := by
  induction k generalizing v with
  | zero => simp [natOfDigits, Nat.mod_one]
  | succ k ih =>
    have e : (fun i => BitVec.ofNat w (v >>> (w * (i + 1)))) =
        fun i => BitVec.ofNat w ((v >>> w) >>> (w * i)) := by
      funext i
      rw [← Nat.shiftRight_add, Nat.mul_succ, Nat.add_comm (w * i)]
    rw [List.range_succ_eq_map, List.map_cons, List.map_map]
    show (BitVec.ofNat w (v >>> (w * 0))).toNat + 2 ^ w *
      natOfDigits ((List.range k).map fun i => BitVec.ofNat w (v >>> (w * (i + 1)))) = _
    rw [e, ih, Nat.mul_succ, Nat.add_comm (w * k), Nat.pow_add, Nat.mod_mul]
    simp [Nat.shiftRight_eq_div_pow]

/-- `dig(v)` stands for `v mod 2^BITS`. -/
@[simp] theorem val_dig (v : Nat) : (dig w n v).val = v % 2 ^ (n * w) := by
  show natOfDigits ((List.range n).map fun i => BitVec.ofNat w (v >>> (w * i))) = _
  rw [natOfDigits_shift, Nat.mul_comm]

/-- Every value is the digits of its number. -/
@[simp] theorem dig_val (a : Value w n) : dig w n a.val = a := by
  rw [← val_inj, val_dig, Nat.mod_eq_of_lt (val_lt a)]

/-- A value below `2^BITS` is `dig` of a number exactly when it stands for it. -/
theorem eq_dig_iff (a : Value w n) (v : Nat) : a = dig w n v ↔ a.val = v % 2 ^ (n * w) := by
  rw [← val_inj, val_dig]

/-- The ripple-carry chain is exact (R200). -/
theorem addChain_exact (as bs : List (BitVec w)) (hl : bs.length = as.length) (c : Bool) :
    natOfDigits (addChain as bs c).1 + 2 ^ (w * as.length) * (addChain as bs c).2.toNat =
      natOfDigits as + natOfDigits bs + c.toNat := by
  induction as generalizing bs c with
  | nil =>
    cases bs with
    | nil => simp [addChain, natOfDigits]
    | cons b bs => simp at hl
  | cons a as ih =>
    cases bs with
    | nil => simp at hl
    | cons b bs =>
      have ih := ih bs (by simpa using hl) ((a.toNat + b.toNat + c.toNat).testBit w)
      simp only [addChain, natOfDigits, List.headD_cons, List.tail_cons, List.length_cons, Nat.mul_succ,
        Nat.pow_add, BitVec.toNat_ofNat]
      set t := a.toNat + b.toNat + c.toNat with ht
      have hc : c.toNat ≤ 1 := by cases c <;> decide
      have ha := a.isLt
      have hb := b.isLt
      have hsplit : t % 2 ^ w + 2 ^ w * (t.testBit w).toNat = t := by
        have h2 : t / 2 ^ w < 2 := by
          rw [Nat.div_lt_iff_lt_mul (Nat.two_pow_pos w)]
          omega
        have h3 : (t.testBit w).toNat = t / 2 ^ w := by
          rw [Nat.toNat_testBit]
          exact Nat.mod_eq_of_lt h2
        rw [h3]
        exact Nat.mod_add_div t (2 ^ w)
      set r := addChain as bs (t.testBit w)
      calc t % 2 ^ w + 2 ^ w * natOfDigits r.1 + 2 ^ (w * as.length) * 2 ^ w * r.2.toNat
          = t % 2 ^ w + 2 ^ w * (natOfDigits r.1 + 2 ^ (w * as.length) * r.2.toNat) := by ring
        _ = t % 2 ^ w + 2 ^ w * (t.testBit w).toNat + 2 ^ w * (natOfDigits as + natOfDigits bs) := by
            rw [ih]; ring
        _ = _ := by rw [hsplit, ht]; ring

/-- `AddN` is exact: sum and carry together are the sum of the operands (R200). -/
theorem addN_exact (a b : Value w n) (cin : Bool) :
    (addN a b cin).1.val + 2 ^ (n * w) * (addN a b cin).2.toNat = a.val + b.val + cin.toNat := by
  have h := addChain_exact a.digits b.digits (b.length_digits.trans a.length_digits.symm) cin
  rw [a.length_digits, Nat.mul_comm w] at h
  exact h

/-- The ripple-borrow chain is exact (R201). -/
theorem subChain_exact (as bs : List (BitVec w)) (hl : bs.length = as.length) (c : Bool) :
    (natOfDigits (subChain as bs c).1 : Int) - 2 ^ (w * as.length) * (subChain as bs c).2.toNat =
      natOfDigits as - natOfDigits bs - c.toNat := by
  induction as generalizing bs c with
  | nil =>
    cases bs with
    | nil => simp [subChain, natOfDigits]
    | cons b bs => simp at hl
  | cons a as ih =>
    cases bs with
    | nil => simp at hl
    | cons b bs =>
      obtain ⟨t, ht⟩ : ∃ t : Int, t = (a.toNat : Int) - b.toNat - c.toNat := ⟨_, rfl⟩
      have hstep : subChain (a :: as) (b :: bs) c =
          (BitVec.ofInt w (if t < 0 then t + 2 ^ w else t) :: (subChain as bs (decide (t < 0))).1,
            (subChain as bs (decide (t < 0))).2) := by subst ht; rfl
      have ih := ih bs (by simpa using hl) (decide (t < 0))
      have hc : c.toNat ≤ 1 := by cases c <;> decide
      have ha : (a.toNat : Int) < 2 ^ w := by exact_mod_cast a.isLt
      have hb : (b.toNat : Int) < 2 ^ w := by exact_mod_cast b.isLt
      have hdig : ((BitVec.ofInt w (if t < 0 then t + 2 ^ w else t)).toNat : Int) =
          t + 2 ^ w * (decide (t < 0)).toNat := by
        have hr : 0 ≤ (if t < 0 then t + 2 ^ w else t) ∧ (if t < 0 then t + 2 ^ w else t) < 2 ^ w := by
          split <;> omega
        rw [BitVec.toNat_ofInt, Nat.cast_pow, Nat.cast_ofNat, Int.emod_eq_of_lt hr.1 hr.2,
          Int.toNat_of_nonneg hr.1]
        by_cases h : t < 0 <;> simp [h]
      rw [hstep]
      simp only [natOfDigits, List.length_cons, Nat.mul_succ, pow_add, Nat.cast_add, Nat.cast_mul,
        Nat.cast_pow, Nat.cast_ofNat, hdig]
      linear_combination (2 ^ w : Int) * ih + ht

/-- `SubN` is exact: difference and borrow together are the difference of the operands (R201). -/
theorem subN_exact (a b : Value w n) :
    ((subN a b).1.val : Int) - 2 ^ (n * w) * (subN a b).2.toNat = a.val - b.val := by
  have h := subChain_exact a.digits b.digits (b.length_digits.trans a.length_digits.symm) false
  rw [a.length_digits, Nat.mul_comm w] at h
  exact h.trans (by simp [Value.val])

end Sys2Proof.Machine
end

