-- ==== Sys2Proof/Laws/Flags.lean ====
section
/-! SUPPORT. The fields of `FLAGS`, `FAULT` and `CFG`: a field that is written reads back, the other fields
and bits keep their values, and the well-formed words stay well formed. -/

namespace Sys2Proof.Machine

/-- Every bit of a word after one bit is written. -/
@[simp] theorem getLsbD_putBit (i : Nat) (b : Bool) (f : Word) (k : Nat) :
    (putBit i b f).getLsbD k = if k = i ∧ k < 32 then b else f.getLsbD k := by
  by_cases hk : k < 32
  · cases b
    · simp only [putBit, Bool.false_eq_true, if_false, BitVec.getLsbD_and, BitVec.getLsbD_not,
        BitVec.getLsbD_twoPow, hk, and_true]
      by_cases h : k = i
      · subst h; simp [hk]
      · have : ¬ i = k := fun e => h e.symm
        simp [h, this]
    · simp only [putBit, if_true, BitVec.getLsbD_or, BitVec.getLsbD_twoPow, hk, and_true]
      by_cases h : k = i
      · subst h; simp [hk]
      · have : ¬ i = k := fun e => h e.symm
        simp [h, this]
  · rw [BitVec.getLsbD_of_ge _ _ (by omega), BitVec.getLsbD_of_ge _ _ (by omega), if_neg (by omega)]

@[simp] theorem flagOvf_putOvf (b : Bool) (f : Word) : flagOvf (putOvf b f) = b := by
  rw [flagOvf, putOvf, getLsbD_putBit, if_pos (by decide)]
@[simp] theorem flagNone_putNone (b : Bool) (f : Word) : flagNone (putNone b f) = b := by
  rw [flagNone, putNone, getLsbD_putBit, if_pos (by decide)]
@[simp] theorem flagT_putT (b : Bool) (f : Word) : flagT (putT b f) = b := by rw [flagT, putT, getLsbD_putBit, if_pos (by decide)]

/-- `FLAGS.ORD` bit by bit. -/
theorem getLsbD_flagOrd (f : Word) (k : Nat) :
    (flagOrd f).getLsbD k = (decide (k < 2) && f.getLsbD (3 + k)) := by
  simp [flagOrd]

/-- Every bit of a word after `ORD` is written. -/
@[simp] theorem getLsbD_putOrd (o : BitVec 2) (f : Word) (k : Nat) :
    (putOrd o f).getLsbD k =
      if k = 3 then o.getLsbD 0 else if k = 4 then o.getLsbD 1 else f.getLsbD k := by
  rw [putOrd, getLsbD_putBit, getLsbD_putBit]
  by_cases h : k = 3
  · simp [h]
  · by_cases h' : k = 4 <;> simp [h, h']

@[simp] theorem flagOrd_putOrd (o : BitVec 2) (f : Word) : flagOrd (putOrd o f) = o := by
  apply BitVec.eq_of_getLsbD_eq
  intro i hi
  rw [getLsbD_flagOrd, getLsbD_putOrd]
  obtain rfl | rfl : i = 0 ∨ i = 1 := by omega
  · simp
  · simp

/-- The active bit of a fault word is set. -/
@[simp] theorem faultActive_faultWord (c : Cause) : faultActive (faultWord c) = true := by
  cases c <;> decide

/-- The cause field of a fault word. -/
@[simp] theorem faultCause_faultWord (c : Cause) : faultCause (faultWord c) = causeCode c := by
  cases c <;> decide

@[simp] theorem faultActive_zero : faultActive 0 = false := by decide
@[simp] theorem cfgChecked_cfgWord (b : Bool) : cfgChecked (cfgWord b) = b := by cases b <;> decide

/-- A word is below 32 exactly when bits 31:5 are clear. -/
theorem lt_32_iff (f : Word) : f.toNat < 32 ↔ ∀ k, 5 ≤ k → f.getLsbD k = false := by
  constructor
  · intro h k hk
    rw [BitVec.getLsbD]
    have h5 : 2 ^ 5 ≤ 2 ^ k := Nat.pow_le_pow_right (by decide) hk
    exact Nat.testBit_lt_two_pow (lt_of_lt_of_le h h5)
  · intro h
    exact Nat.lt_pow_two_of_testBit (n := 5) _ fun k hk => h k hk

/-- `FLAGS` stays well formed when a one-bit field is written. -/
theorem FlagsWf.putBit {f : Word} (hf : FlagsWf f) {i : Nat} (hi : i < 3) (b : Bool) :
    FlagsWf (putBit i b f) := by
  refine ⟨(lt_32_iff _).2 fun k hk => ?_, fun h => hf.2 ?_⟩
  · rw [getLsbD_putBit, if_neg (by omega)]
    exact (lt_32_iff _).1 hf.1 k hk
  · rw [← h]
    apply BitVec.eq_of_getLsbD_eq
    intro k hk
    rw [getLsbD_flagOrd, getLsbD_flagOrd, getLsbD_putBit, if_neg (by omega)]

theorem FlagsWf.putOvf {f : Word} (hf : FlagsWf f) (b : Bool) : FlagsWf (putOvf b f) := hf.putBit (by decide) b
theorem FlagsWf.putNone {f : Word} (hf : FlagsWf f) (b : Bool) : FlagsWf (putNone b f) := hf.putBit (by decide) b
theorem FlagsWf.putT {f : Word} (hf : FlagsWf f) (b : Bool) : FlagsWf (putT b f) := hf.putBit (by decide) b

/-- `FLAGS` stays well formed when an ordering is written. -/
theorem FlagsWf.putOrd {f : Word} (hf : FlagsWf f) (o : Ordering) : FlagsWf (putOrd (ordCode o) f) := by
  refine ⟨(lt_32_iff _).2 fun k hk => ?_, ?_⟩
  · rw [getLsbD_putOrd, if_neg (by omega), if_neg (by omega)]
    exact (lt_32_iff _).1 hf.1 k hk
  · rw [flagOrd_putOrd]
    cases o <;> decide

end Sys2Proof.Machine
end

