-- ==== Sys2Proof/Laws/State.lean ====
section
/-! SUPPORT. One lemma per field per update of the state, true by `rfl`, so that no later proof unfolds a
record update. An equation between states is rewritten before a field of it is read: the types of the
fields depend on `inst`. -/

namespace Sys2Proof.Machine

/-! ### `done` -/

@[simp] theorem State.done_inst (s : State) : s.done.inst = s.inst := rfl
@[simp] theorem State.done_v (s : State) : s.done.v = s.v := rfl
@[simp] theorem State.done_x (s : State) : s.done.x = s.x := rfl
@[simp] theorem State.done_flags (s : State) : s.done.flags = s.flags := rfl
@[simp] theorem State.done_fault (s : State) : s.done.fault = s.fault := rfl
@[simp] theorem State.done_fcmd (s : State) : s.done.fcmd = s.fcmd := rfl
@[simp] theorem State.done_cfg (s : State) : s.done.cfg = s.cfg := rfl
@[simp] theorem State.done_request (s : State) : s.done.request = s.request := rfl
@[simp] theorem State.done_inputs (s : State) : s.done.inputs = s.inputs := rfl
@[simp] theorem State.done_responses (s : State) : s.done.responses = ⟨.ok, 0, 0⟩ :: s.responses := rfl
@[simp] theorem State.done_strap (s : State) : s.done.strap = s.strap := rfl
@[simp] theorem State.done_draws (s : State) : s.done.draws = s.draws := rfl

/-! ### `reject` -/

@[simp] theorem State.reject_inst (s : State) : s.reject.inst = s.inst := rfl
@[simp] theorem State.reject_v (s : State) : s.reject.v = s.v := rfl
@[simp] theorem State.reject_x (s : State) : s.reject.x = s.x := rfl
@[simp] theorem State.reject_flags (s : State) : s.reject.flags = s.flags := rfl
@[simp] theorem State.reject_fault (s : State) : s.reject.fault = s.fault := rfl
@[simp] theorem State.reject_fcmd (s : State) : s.reject.fcmd = s.fcmd := rfl
@[simp] theorem State.reject_cfg (s : State) : s.reject.cfg = s.cfg := rfl
@[simp] theorem State.reject_request (s : State) : s.reject.request = s.request := rfl
@[simp] theorem State.reject_inputs (s : State) : s.reject.inputs = s.inputs := rfl
@[simp] theorem State.reject_responses (s : State) : s.reject.responses = ⟨.rejected, 0, 0⟩ :: s.responses := rfl
@[simp] theorem State.reject_strap (s : State) : s.reject.strap = s.strap := rfl
@[simp] theorem State.reject_draws (s : State) : s.reject.draws = s.draws := rfl

/-! ### `setReg` -/

@[simp] theorem State.setReg_inst (s : State) (r : Reg) (a : Value s.inst.w s.inst.n) :
    (s.setReg r a).inst = s.inst := rfl
@[simp] theorem State.setReg_v (s : State) (r : Reg) (a : Value s.inst.w s.inst.n) :
    (s.setReg r a).v = s.v.set r a := rfl
@[simp] theorem State.setReg_x (s : State) (r : Reg) (a : Value s.inst.w s.inst.n) :
    (s.setReg r a).x = s.x := rfl
@[simp] theorem State.setReg_flags (s : State) (r : Reg) (a : Value s.inst.w s.inst.n) :
    (s.setReg r a).flags = s.flags := rfl
@[simp] theorem State.setReg_fault (s : State) (r : Reg) (a : Value s.inst.w s.inst.n) :
    (s.setReg r a).fault = s.fault := rfl
@[simp] theorem State.setReg_fcmd (s : State) (r : Reg) (a : Value s.inst.w s.inst.n) :
    (s.setReg r a).fcmd = s.fcmd := rfl
@[simp] theorem State.setReg_cfg (s : State) (r : Reg) (a : Value s.inst.w s.inst.n) :
    (s.setReg r a).cfg = s.cfg := rfl
@[simp] theorem State.setReg_request (s : State) (r : Reg) (a : Value s.inst.w s.inst.n) :
    (s.setReg r a).request = s.request := rfl
@[simp] theorem State.setReg_inputs (s : State) (r : Reg) (a : Value s.inst.w s.inst.n) :
    (s.setReg r a).inputs = s.inputs := rfl
@[simp] theorem State.setReg_responses (s : State) (r : Reg) (a : Value s.inst.w s.inst.n) :
    (s.setReg r a).responses = s.responses := rfl
@[simp] theorem State.setReg_strap (s : State) (r : Reg) (a : Value s.inst.w s.inst.n) :
    (s.setReg r a).strap = s.strap := rfl
@[simp] theorem State.setReg_draws (s : State) (r : Reg) (a : Value s.inst.w s.inst.n) :
    (s.setReg r a).draws = s.draws := rfl

/-! ### `setExpo` -/

@[simp] theorem State.setExpo_inst (s : State) (r : Reg) (e : Word) : (s.setExpo r e).inst = s.inst := rfl
@[simp] theorem State.setExpo_v (s : State) (r : Reg) (e : Word) : (s.setExpo r e).v = s.v := rfl
@[simp] theorem State.setExpo_x (s : State) (r : Reg) (e : Word) : (s.setExpo r e).x = s.x.set r e := rfl
@[simp] theorem State.setExpo_flags (s : State) (r : Reg) (e : Word) : (s.setExpo r e).flags = s.flags := rfl
@[simp] theorem State.setExpo_fault (s : State) (r : Reg) (e : Word) : (s.setExpo r e).fault = s.fault := rfl
@[simp] theorem State.setExpo_fcmd (s : State) (r : Reg) (e : Word) : (s.setExpo r e).fcmd = s.fcmd := rfl
@[simp] theorem State.setExpo_cfg (s : State) (r : Reg) (e : Word) : (s.setExpo r e).cfg = s.cfg := rfl
@[simp] theorem State.setExpo_request (s : State) (r : Reg) (e : Word) :
    (s.setExpo r e).request = s.request := rfl
@[simp] theorem State.setExpo_inputs (s : State) (r : Reg) (e : Word) :
    (s.setExpo r e).inputs = s.inputs := rfl
@[simp] theorem State.setExpo_responses (s : State) (r : Reg) (e : Word) :
    (s.setExpo r e).responses = s.responses := rfl
@[simp] theorem State.setExpo_strap (s : State) (r : Reg) (e : Word) : (s.setExpo r e).strap = s.strap := rfl
@[simp] theorem State.setExpo_draws (s : State) (r : Reg) (e : Word) : (s.setExpo r e).draws = s.draws := rfl

/-! ### `setFlags` -/

@[simp] theorem State.setFlags_inst (s : State) (f : Word) : (s.setFlags f).inst = s.inst := rfl
@[simp] theorem State.setFlags_v (s : State) (f : Word) : (s.setFlags f).v = s.v := rfl
@[simp] theorem State.setFlags_x (s : State) (f : Word) : (s.setFlags f).x = s.x := rfl
@[simp] theorem State.setFlags_flags (s : State) (f : Word) : (s.setFlags f).flags = f := rfl
@[simp] theorem State.setFlags_fault (s : State) (f : Word) : (s.setFlags f).fault = s.fault := rfl
@[simp] theorem State.setFlags_fcmd (s : State) (f : Word) : (s.setFlags f).fcmd = s.fcmd := rfl
@[simp] theorem State.setFlags_cfg (s : State) (f : Word) : (s.setFlags f).cfg = s.cfg := rfl
@[simp] theorem State.setFlags_request (s : State) (f : Word) : (s.setFlags f).request = s.request := rfl
@[simp] theorem State.setFlags_inputs (s : State) (f : Word) : (s.setFlags f).inputs = s.inputs := rfl
@[simp] theorem State.setFlags_responses (s : State) (f : Word) :
    (s.setFlags f).responses = s.responses := rfl
@[simp] theorem State.setFlags_strap (s : State) (f : Word) : (s.setFlags f).strap = s.strap := rfl
@[simp] theorem State.setFlags_draws (s : State) (f : Word) : (s.setFlags f).draws = s.draws := rfl

/-! ### `respond` -/

@[simp] theorem State.respond_inst (s : State) (r : Response s.inst.w) : (s.respond r).inst = s.inst := rfl
@[simp] theorem State.respond_v (s : State) (r : Response s.inst.w) : (s.respond r).v = s.v := rfl
@[simp] theorem State.respond_x (s : State) (r : Response s.inst.w) : (s.respond r).x = s.x := rfl
@[simp] theorem State.respond_flags (s : State) (r : Response s.inst.w) : (s.respond r).flags = s.flags := rfl
@[simp] theorem State.respond_fault (s : State) (r : Response s.inst.w) : (s.respond r).fault = s.fault := rfl
@[simp] theorem State.respond_fcmd (s : State) (r : Response s.inst.w) : (s.respond r).fcmd = s.fcmd := rfl
@[simp] theorem State.respond_cfg (s : State) (r : Response s.inst.w) : (s.respond r).cfg = s.cfg := rfl
@[simp] theorem State.respond_request (s : State) (r : Response s.inst.w) :
    (s.respond r).request = s.request := rfl
@[simp] theorem State.respond_inputs (s : State) (r : Response s.inst.w) :
    (s.respond r).inputs = s.inputs := rfl
@[simp] theorem State.respond_responses (s : State) (r : Response s.inst.w) :
    (s.respond r).responses = r :: s.responses := rfl
@[simp] theorem State.respond_strap (s : State) (r : Response s.inst.w) : (s.respond r).strap = s.strap := rfl
@[simp] theorem State.respond_draws (s : State) (r : Response s.inst.w) : (s.respond r).draws = s.draws := rfl

/-! ### `raise` -/

@[simp] theorem State.raise_inst (s : State) (c : Cause) : (s.raise c).inst = s.inst := rfl
@[simp] theorem State.raise_v (s : State) (c : Cause) : (s.raise c).v = s.v := rfl
@[simp] theorem State.raise_x (s : State) (c : Cause) : (s.raise c).x = s.x := rfl
@[simp] theorem State.raise_flags (s : State) (c : Cause) : (s.raise c).flags = s.flags := rfl
@[simp] theorem State.raise_fault (s : State) (c : Cause) : (s.raise c).fault = faultWord c := rfl
@[simp] theorem State.raise_fcmd (s : State) (c : Cause) : (s.raise c).fcmd = s.request.cmd := rfl
@[simp] theorem State.raise_cfg (s : State) (c : Cause) : (s.raise c).cfg = s.cfg := rfl
@[simp] theorem State.raise_request (s : State) (c : Cause) : (s.raise c).request = s.request := rfl
@[simp] theorem State.raise_inputs (s : State) (c : Cause) : (s.raise c).inputs = s.inputs := rfl
@[simp] theorem State.raise_responses (s : State) (c : Cause) :
    (s.raise c).responses = ⟨.fault, 0, 0⟩ :: s.responses := rfl
@[simp] theorem State.raise_strap (s : State) (c : Cause) : (s.raise c).strap = s.strap := rfl
@[simp] theorem State.raise_draws (s : State) (c : Cause) : (s.raise c).draws = s.draws := rfl

/-! ### `clearFault` -/

@[simp] theorem State.clearFault_inst (s : State) : (s.clearFault).inst = s.inst := rfl
@[simp] theorem State.clearFault_v (s : State) : (s.clearFault).v = s.v := rfl
@[simp] theorem State.clearFault_x (s : State) : (s.clearFault).x = s.x := rfl
@[simp] theorem State.clearFault_flags (s : State) : (s.clearFault).flags = s.flags := rfl
@[simp] theorem State.clearFault_fault (s : State) : (s.clearFault).fault = 0 := rfl
@[simp] theorem State.clearFault_fcmd (s : State) : (s.clearFault).fcmd = 0 := rfl
@[simp] theorem State.clearFault_cfg (s : State) : (s.clearFault).cfg = s.cfg := rfl
@[simp] theorem State.clearFault_request (s : State) : (s.clearFault).request = s.request := rfl
@[simp] theorem State.clearFault_inputs (s : State) : (s.clearFault).inputs = s.inputs := rfl
@[simp] theorem State.clearFault_responses (s : State) : (s.clearFault).responses = s.responses := rfl
@[simp] theorem State.clearFault_strap (s : State) : (s.clearFault).strap = s.strap := rfl
@[simp] theorem State.clearFault_draws (s : State) : (s.clearFault).draws = s.draws := rfl

/-! ### `setDigit` -/

@[simp] theorem State.setDigit_inst (s : State) (r : Reg) (i : Nat) (d : BitVec s.inst.w) :
    (s.setDigit r i d).inst = s.inst := rfl
@[simp] theorem State.setDigit_v (s : State) (r : Reg) (i : Nat) (d : BitVec s.inst.w) :
    (s.setDigit r i d).v = s.v.set r (putDigit (s.reg r) i d) := rfl
@[simp] theorem State.setDigit_x (s : State) (r : Reg) (i : Nat) (d : BitVec s.inst.w) :
    (s.setDigit r i d).x = s.x := rfl
@[simp] theorem State.setDigit_flags (s : State) (r : Reg) (i : Nat) (d : BitVec s.inst.w) :
    (s.setDigit r i d).flags = s.flags := rfl
@[simp] theorem State.setDigit_fault (s : State) (r : Reg) (i : Nat) (d : BitVec s.inst.w) :
    (s.setDigit r i d).fault = s.fault := rfl
@[simp] theorem State.setDigit_fcmd (s : State) (r : Reg) (i : Nat) (d : BitVec s.inst.w) :
    (s.setDigit r i d).fcmd = s.fcmd := rfl
@[simp] theorem State.setDigit_cfg (s : State) (r : Reg) (i : Nat) (d : BitVec s.inst.w) :
    (s.setDigit r i d).cfg = s.cfg := rfl
@[simp] theorem State.setDigit_request (s : State) (r : Reg) (i : Nat) (d : BitVec s.inst.w) :
    (s.setDigit r i d).request = s.request := rfl
@[simp] theorem State.setDigit_inputs (s : State) (r : Reg) (i : Nat) (d : BitVec s.inst.w) :
    (s.setDigit r i d).inputs = s.inputs := rfl
@[simp] theorem State.setDigit_responses (s : State) (r : Reg) (i : Nat) (d : BitVec s.inst.w) :
    (s.setDigit r i d).responses = s.responses := rfl
@[simp] theorem State.setDigit_strap (s : State) (r : Reg) (i : Nat) (d : BitVec s.inst.w) :
    (s.setDigit r i d).strap = s.strap := rfl
@[simp] theorem State.setDigit_draws (s : State) (r : Reg) (i : Nat) (d : BitVec s.inst.w) :
    (s.setDigit r i d).draws = s.draws := rfl

/-! ### `accept` -/

@[simp] theorem State.accept_inst (s : State) (q : Request s.inst.w) : (s.accept q).inst = s.inst := rfl
@[simp] theorem State.accept_v (s : State) (q : Request s.inst.w) : (s.accept q).v = s.v := rfl
@[simp] theorem State.accept_x (s : State) (q : Request s.inst.w) : (s.accept q).x = s.x := rfl
@[simp] theorem State.accept_flags (s : State) (q : Request s.inst.w) : (s.accept q).flags = s.flags := rfl
@[simp] theorem State.accept_fault (s : State) (q : Request s.inst.w) : (s.accept q).fault = s.fault := rfl
@[simp] theorem State.accept_fcmd (s : State) (q : Request s.inst.w) : (s.accept q).fcmd = s.fcmd := rfl
@[simp] theorem State.accept_cfg (s : State) (q : Request s.inst.w) : (s.accept q).cfg = s.cfg := rfl
@[simp] theorem State.accept_request (s : State) (q : Request s.inst.w) : (s.accept q).request = q := rfl
@[simp] theorem State.accept_inputs (s : State) (q : Request s.inst.w) : (s.accept q).inputs = s.inputs := rfl
@[simp] theorem State.accept_responses (s : State) (q : Request s.inst.w) :
    (s.accept q).responses = s.responses := rfl
@[simp] theorem State.accept_strap (s : State) (q : Request s.inst.w) : (s.accept q).strap = s.strap := rfl
@[simp] theorem State.accept_draws (s : State) (q : Request s.inst.w) : (s.accept q).draws = s.draws := rfl

/-! ### `setStrap` -/

@[simp] theorem State.setStrap_inst (s : State) (b : Bool) : (s.setStrap b).inst = s.inst := rfl
@[simp] theorem State.setStrap_v (s : State) (b : Bool) : (s.setStrap b).v = s.v := rfl
@[simp] theorem State.setStrap_x (s : State) (b : Bool) : (s.setStrap b).x = s.x := rfl
@[simp] theorem State.setStrap_flags (s : State) (b : Bool) : (s.setStrap b).flags = s.flags := rfl
@[simp] theorem State.setStrap_fault (s : State) (b : Bool) : (s.setStrap b).fault = s.fault := rfl
@[simp] theorem State.setStrap_fcmd (s : State) (b : Bool) : (s.setStrap b).fcmd = s.fcmd := rfl
@[simp] theorem State.setStrap_cfg (s : State) (b : Bool) : (s.setStrap b).cfg = s.cfg := rfl
@[simp] theorem State.setStrap_request (s : State) (b : Bool) : (s.setStrap b).request = s.request := rfl
@[simp] theorem State.setStrap_inputs (s : State) (b : Bool) : (s.setStrap b).inputs = s.inputs := rfl
@[simp] theorem State.setStrap_responses (s : State) (b : Bool) :
    (s.setStrap b).responses = s.responses := rfl
@[simp] theorem State.setStrap_strap (s : State) (b : Bool) : (s.setStrap b).strap = b := rfl
@[simp] theorem State.setStrap_draws (s : State) (b : Bool) : (s.setStrap b).draws = s.draws := rfl

/-! ### `resetUnit` -/

@[simp] theorem State.resetUnit_inst (s : State) : (s.resetUnit).inst = s.inst := rfl
@[simp] theorem State.resetUnit_v (s : State) :
    (s.resetUnit).v = .ofFn fun r => valueOfFn _ fun i => Config.resetDigit _ s.draws r i := rfl
@[simp] theorem State.resetUnit_x (s : State) :
    (s.resetUnit).x = .ofFn fun r => Config.resetExpo s.draws r := rfl
@[simp] theorem State.resetUnit_flags (s : State) : (s.resetUnit).flags = 0 := rfl
@[simp] theorem State.resetUnit_fault (s : State) : (s.resetUnit).fault = 0 := rfl
@[simp] theorem State.resetUnit_fcmd (s : State) : (s.resetUnit).fcmd = 0 := rfl
@[simp] theorem State.resetUnit_cfg (s : State) : (s.resetUnit).cfg = cfgWord s.strap := rfl
@[simp] theorem State.resetUnit_request (s : State) : (s.resetUnit).request = s.request := rfl
@[simp] theorem State.resetUnit_inputs (s : State) : (s.resetUnit).inputs = s.inputs := rfl
@[simp] theorem State.resetUnit_responses (s : State) : (s.resetUnit).responses = s.responses := rfl
@[simp] theorem State.resetUnit_strap (s : State) : (s.resetUnit).strap = s.strap := rfl
@[simp] theorem State.resetUnit_draws (s : State) : (s.resetUnit).draws = s.draws + 1 := rfl

/-! ### Reading a register after a write -/

@[simp] theorem State.reg_setReg_self (s : State) (r : Reg) (a : Value s.inst.w s.inst.n) :
    (s.setReg r a).reg r = a := by
  show (s.v.set r a)[r] = a
  simp

theorem State.reg_setReg_ne (s : State) {r q : Reg} (h : q ≠ r) (a : Value s.inst.w s.inst.n) :
    (s.setReg r a).reg q = s.reg q := by
  show (s.v.set r a)[q] = s.v[q]
  have : (r : Nat) ≠ q := fun e => h (Fin.ext e.symm)
  simp [this]

@[simp] theorem State.expo_setExpo_self (s : State) (r : Reg) (e : Word) : (s.setExpo r e).expo r = e := by
  show (s.x.set r e)[r] = e
  simp

theorem State.expo_setExpo_ne (s : State) {r q : Reg} (h : q ≠ r) (e : Word) :
    (s.setExpo r e).expo q = s.expo q := by
  show (s.x.set r e)[q] = s.x[q]
  have : (r : Nat) ≠ q := fun e => h (Fin.ext e.symm)
  simp [this]

end Sys2Proof.Machine
end

