-- ==== Sys2Proof/Laws/Ops.lean ====
section
/-! SUPPORT. One lemma for each shared operation, saying once everything it can do. -/

namespace Sys2Proof.Machine

/-- Everything delivery can do: the register and no flag (W, S, and D without a fault), the flag `NONE`
alone or with the register (C), the register and the flag `OVF` (O), or the fault `Overflow` (D in the
checked build). -/
theorem State.deliver_cases (s : State) (var : Variant) (rd : Reg) (t : Triple s.inst.w s.inst.n) :
    (var = .wrapping ∧ s.deliver var rd t = (s.setReg rd t.wrapped).done) ∨
    (var = .checked ∧ t.overflow = true ∧ s.deliver var rd t = (s.setFlags (putNone true s.flags)).done) ∨
    (var = .checked ∧ t.overflow = false ∧
      s.deliver var rd t = ((s.setReg rd t.wrapped).setFlags (putNone false s.flags)).done) ∨
    (var = .overflowing ∧
      s.deliver var rd t = ((s.setReg rd t.wrapped).setFlags (putOvf t.overflow s.flags)).done) ∨
    (var = .saturating ∧ t.overflow = true ∧ s.deliver var rd t = (s.setReg rd t.bound).done) ∨
    (var = .saturating ∧ t.overflow = false ∧ s.deliver var rd t = (s.setReg rd t.wrapped).done) ∨
    (var = .panicking ∧ s.checked = true ∧ t.overflow = true ∧ s.deliver var rd t = s.raise .overflow) ∨
    (var = .panicking ∧ (s.checked = false ∨ t.overflow = false) ∧
      s.deliver var rd t = (s.setReg rd t.wrapped).done) := by
  cases var <;> cases ho : t.overflow <;> cases hc : s.checked <;> simp [State.deliver, ho, hc]

/-- Everything a division by zero can do: `NONE` under C, the fault `DivZero` under every other variant. -/
theorem State.divideByZero_cases (s : State) (var : Variant) :
    (var = .checked ∧ s.divideByZero var = (s.setFlags (putNone true s.flags)).done) ∨
    (var ≠ .checked ∧ s.divideByZero var = s.raise .divZero) := by
  cases var <;> simp [State.divideByZero]

/-- A division divides by zero, or delivers. -/
theorem State.deliverDivision_cases (s : State) (var : Variant) (rd : Reg) (d : Value s.inst.w s.inst.n)
    (t : Triple s.inst.w s.inst.n) :
    (isZeroN d = true ∧ s.deliverDivision var rd d t = s.divideByZero var) ∨
    (isZeroN d = false ∧ s.deliverDivision var rd d t = s.deliver var rd t) := by
  cases h : isZeroN d <;> simp [State.deliverDivision, h]

/-- Everything a transaction can do: rejection, `Illegal`, or the command's own rule. -/
theorem transact_cases (s : State) :
    (s.faultOutput = true ∧ runsWhileFaulted s.request.cmd = false ∧ transact s = .next s.reject) ∨
    ((s.faultOutput = false ∨ runsWhileFaulted s.request.cmd = true) ∧
      ((∃ e, decode s.request.cmd = .error e ∧ transact s = .next (s.raise .illegal)) ∨
        ∃ i, decode s.request.cmd = .ok i ∧ transact s = exec i s)) := by
  cases hf : s.faultOutput <;> cases hr : runsWhileFaulted s.request.cmd <;>
    cases hd : decode s.request.cmd <;> simp [transact, hf, hr, hd]

/-- Everything a step can do: stay idle, run one transaction, reset, or take a new strap level. -/
theorem step_cases (s : State) :
    (s.inputs = [] ∧ step s = .next s) ∨
    (∃ req rest, s.inputs = .command req :: rest ∧
      step s = transact (State.accept { s with inputs := rest } req)) ∨
    (∃ rest, s.inputs = .reset :: rest ∧ step s = .next (State.resetUnit { s with inputs := rest })) ∨
    (∃ level rest, s.inputs = .strap level :: rest ∧
      step s = .next (State.setStrap { s with inputs := rest } level)) := by
  cases h : s.inputs with
  | nil => exact .inl ⟨rfl, by rw [step]; split <;> simp_all⟩
  | cons m rest =>
    have hs : step s = hostMove { s with inputs := rest } m := by
      rw [step]
      split
      · simp_all
      · rename_i m' rest' h'
        rw [h] at h'
        cases h'
        rfl
    cases m with
    | command req => exact .inr (.inl ⟨req, rest, rfl, hs⟩)
    | reset => exact .inr (.inr (.inl ⟨rest, rfl, hs⟩))
    | strap level => exact .inr (.inr (.inr ⟨level, rest, rfl, hs⟩))

/-- Fault entry leaves a fault active. -/
@[simp] theorem State.faultOutput_raise (s : State) (c : Cause) : (s.raise c).faultOutput = true :=
  faultActive_faultWord c

/-- Acknowledgement leaves no fault active. -/
@[simp] theorem State.faultOutput_clearFault (s : State) : s.clearFault.faultOutput = false :=
  faultActive_zero

end Sys2Proof.Machine
end

