-- ==== Sys2Proof/Laws/PerInstr.lean ====
section
/-! SUPPORT. Families of statements about commands as syntax, one lemma per constructor of `Instr`. -/

namespace Sys2Proof.Laws

/-- `OP` of a command, by the opcode map (R78). -/
def opcodeOf (i : Instr) : BitVec 8 :=
  match i with
  | .nop => 0x00#8
  | .mov .. => 0x01#8
  | .ldd .. => 0x02#8
  | .std .. => 0x03#8
  | .lds .. => 0x04#8
  | .ldx .. => 0x05#8
  | .stx .. => 0x06#8
  | .rcs .. => 0x07#8
  | .fclr => 0x08#8
  | .cmp .. | .cmpS .. => 0x10#8
  | .eq .. => 0x11#8
  | .isz .. => 0x12#8
  | .isone .. => 0x13#8
  | .isp2 .. => 0x14#8
  | .isneg .. => 0x15#8
  | .blen .. => 0x16#8
  | .bit .. => 0x17#8
  | .shlW .. | .shlC .. | .shlO .. | .shl .. => 0x20#8
  | .shrW .. | .shrC .. | .shrO .. | .shr .. | .shrWS .. | .shrCS .. | .shrOS .. | .shrS .. => 0x21#8
  | .rotl .. => 0x22#8
  | .rotr .. => 0x23#8
  | .clz .. => 0x24#8
  | .ctz .. => 0x25#8
  | .clo .. => 0x26#8
  | .cto .. => 0x27#8
  | .cnt1 .. => 0x28#8
  | .cnt0 .. => 0x29#8
  | .swapb .. => 0x2A#8
  | .revb .. => 0x2B#8
  | .not .. => 0x2C#8
  | .addW ..
  | .addC ..
  | .addO ..
  | .addSat ..
  | .add ..
  | .addWS ..
  | .addCS ..
  | .addOS ..
  | .addSatS ..
  | .addS .. => 0x30#8
  | .subW ..
  | .subC ..
  | .subO ..
  | .subSat ..
  | .sub ..
  | .subWS ..
  | .subCS ..
  | .subOS ..
  | .subSatS ..
  | .subS .. => 0x31#8
  | .mulW ..
  | .mulC ..
  | .mulO ..
  | .mulSat ..
  | .mul ..
  | .mulWS ..
  | .mulCS ..
  | .mulOS ..
  | .mulSatS ..
  | .mulS .. => 0x32#8
  | .divW ..
  | .divC ..
  | .divO ..
  | .divSat ..
  | .div ..
  | .divWS ..
  | .divCS ..
  | .divOS ..
  | .divSatS ..
  | .divS .. => 0x33#8
  | .remW .. | .remC .. | .remO .. | .rem .. | .remWS .. | .remCS .. | .remOS .. | .remS .. => 0x34#8
  | .diveW ..
  | .diveC ..
  | .diveO ..
  | .diveSat ..
  | .dive ..
  | .diveWS ..
  | .diveCS ..
  | .diveOS ..
  | .diveSatS ..
  | .diveS .. => 0x35#8
  | .remeW .. | .remeC .. | .remeO .. | .reme .. | .remeWS .. | .remeCS .. | .remeOS .. | .remeS .. => 0x36#8
  | .gcd .. => 0x37#8
  | .log2C .. | .log2 .. => 0x38#8
  | .npotW .. | .npotC .. | .npotO .. | .npot .. => 0x39#8
  | .negW .. | .negWS .. | .negCS .. | .negOS .. | .negSatS .. | .negS .. => 0x40#8
  | .absWS .. | .absCS .. | .absOS .. | .absSatS .. | .absS .. => 0x41#8

/-- The low byte of a command's word is its opcode: what the rejection test looks at (R72, R80). -/
def OpcodeByte.Statement (i : Instr) : Prop := opField (encode i) = opcodeOf i

theorem OpcodeByte.nop : Statement .nop := opField_encodeZ _
theorem OpcodeByte.mov (rd rs1 : Reg) : Statement (.mov rd rs1) := opField_encodeR _ _ _ _ _ _ _
theorem OpcodeByte.ldd (r : Reg) (idx : DigitIdx) : Statement (.ldd r idx) := opField_encodeD _ _ _
theorem OpcodeByte.std (r : Reg) (idx : DigitIdx) : Statement (.std r idx) := opField_encodeD _ _ _
theorem OpcodeByte.lds (r : Reg) : Statement (.lds r) := opField_encodeD _ _ _
theorem OpcodeByte.ldx (xr : Reg) : Statement (.ldx xr) := opField_encodeR _ _ _ _ _ _ _
theorem OpcodeByte.stx (xr : Reg) : Statement (.stx xr) := opField_encodeR _ _ _ _ _ _ _
theorem OpcodeByte.rcs (idx : DigitIdx) : Statement (.rcs idx) := opField_encodeD _ _ _
theorem OpcodeByte.fclr : Statement .fclr := opField_encodeZ _
theorem OpcodeByte.cmp (rs1 rs2 : Reg) : Statement (.cmp rs1 rs2) := opField_encodeR _ _ _ _ _ _ _
theorem OpcodeByte.cmpS (rs1 rs2 : Reg) : Statement (.cmpS rs1 rs2) := opField_encodeR _ _ _ _ _ _ _
theorem OpcodeByte.eq (rs1 rs2 : Reg) : Statement (.eq rs1 rs2) := opField_encodeR _ _ _ _ _ _ _
theorem OpcodeByte.isz (rs1 : Reg) : Statement (.isz rs1) := opField_encodeR _ _ _ _ _ _ _
theorem OpcodeByte.isone (rs1 : Reg) : Statement (.isone rs1) := opField_encodeR _ _ _ _ _ _ _
theorem OpcodeByte.isp2 (rs1 : Reg) : Statement (.isp2 rs1) := opField_encodeR _ _ _ _ _ _ _
theorem OpcodeByte.isneg (rs1 : Reg) : Statement (.isneg rs1) := opField_encodeR _ _ _ _ _ _ _
theorem OpcodeByte.blen (xr rs1 : Reg) : Statement (.blen xr rs1) := opField_encodeR _ _ _ _ _ _ _
theorem OpcodeByte.bit (rs1 xr : Reg) : Statement (.bit rs1 xr) := opField_encodeR _ _ _ _ _ _ _
theorem OpcodeByte.shlW (rd rs1 xr : Reg) : Statement (.shlW rd rs1 xr) := opField_encodeR _ _ _ _ _ _ _
theorem OpcodeByte.shlC (rd rs1 xr : Reg) : Statement (.shlC rd rs1 xr) := opField_encodeR _ _ _ _ _ _ _
theorem OpcodeByte.shlO (rd rs1 xr : Reg) : Statement (.shlO rd rs1 xr) := opField_encodeR _ _ _ _ _ _ _
theorem OpcodeByte.shl (rd rs1 xr : Reg) : Statement (.shl rd rs1 xr) := opField_encodeR _ _ _ _ _ _ _
theorem OpcodeByte.shrW (rd rs1 xr : Reg) : Statement (.shrW rd rs1 xr) := opField_encodeR _ _ _ _ _ _ _
theorem OpcodeByte.shrC (rd rs1 xr : Reg) : Statement (.shrC rd rs1 xr) := opField_encodeR _ _ _ _ _ _ _
theorem OpcodeByte.shrO (rd rs1 xr : Reg) : Statement (.shrO rd rs1 xr) := opField_encodeR _ _ _ _ _ _ _
theorem OpcodeByte.shr (rd rs1 xr : Reg) : Statement (.shr rd rs1 xr) := opField_encodeR _ _ _ _ _ _ _
theorem OpcodeByte.shrWS (rd rs1 xr : Reg) : Statement (.shrWS rd rs1 xr) := opField_encodeR _ _ _ _ _ _ _
theorem OpcodeByte.shrCS (rd rs1 xr : Reg) : Statement (.shrCS rd rs1 xr) := opField_encodeR _ _ _ _ _ _ _
theorem OpcodeByte.shrOS (rd rs1 xr : Reg) : Statement (.shrOS rd rs1 xr) := opField_encodeR _ _ _ _ _ _ _
theorem OpcodeByte.shrS (rd rs1 xr : Reg) : Statement (.shrS rd rs1 xr) := opField_encodeR _ _ _ _ _ _ _
theorem OpcodeByte.rotl (rd rs1 xr : Reg) : Statement (.rotl rd rs1 xr) := opField_encodeR _ _ _ _ _ _ _
theorem OpcodeByte.rotr (rd rs1 xr : Reg) : Statement (.rotr rd rs1 xr) := opField_encodeR _ _ _ _ _ _ _
theorem OpcodeByte.clz (xr rs1 : Reg) : Statement (.clz xr rs1) := opField_encodeR _ _ _ _ _ _ _
theorem OpcodeByte.ctz (xr rs1 : Reg) : Statement (.ctz xr rs1) := opField_encodeR _ _ _ _ _ _ _
theorem OpcodeByte.clo (xr rs1 : Reg) : Statement (.clo xr rs1) := opField_encodeR _ _ _ _ _ _ _
theorem OpcodeByte.cto (xr rs1 : Reg) : Statement (.cto xr rs1) := opField_encodeR _ _ _ _ _ _ _
theorem OpcodeByte.cnt1 (xr rs1 : Reg) : Statement (.cnt1 xr rs1) := opField_encodeR _ _ _ _ _ _ _
theorem OpcodeByte.cnt0 (xr rs1 : Reg) : Statement (.cnt0 xr rs1) := opField_encodeR _ _ _ _ _ _ _
theorem OpcodeByte.swapb (rd rs1 : Reg) : Statement (.swapb rd rs1) := opField_encodeR _ _ _ _ _ _ _
theorem OpcodeByte.revb (rd rs1 : Reg) : Statement (.revb rd rs1) := opField_encodeR _ _ _ _ _ _ _
theorem OpcodeByte.not (rd rs1 : Reg) : Statement (.not rd rs1) := opField_encodeR _ _ _ _ _ _ _
theorem OpcodeByte.addW (rd rs1 rs2 : Reg) : Statement (.addW rd rs1 rs2) := opField_encodeR _ _ _ _ _ _ _
theorem OpcodeByte.addC (rd rs1 rs2 : Reg) : Statement (.addC rd rs1 rs2) := opField_encodeR _ _ _ _ _ _ _
theorem OpcodeByte.addO (rd rs1 rs2 : Reg) : Statement (.addO rd rs1 rs2) := opField_encodeR _ _ _ _ _ _ _
theorem OpcodeByte.addSat (rd rs1 rs2 : Reg) : Statement (.addSat rd rs1 rs2) := opField_encodeR _ _ _ _ _ _ _
theorem OpcodeByte.add (rd rs1 rs2 : Reg) : Statement (.add rd rs1 rs2) := opField_encodeR _ _ _ _ _ _ _
theorem OpcodeByte.addWS (rd rs1 rs2 : Reg) : Statement (.addWS rd rs1 rs2) := opField_encodeR _ _ _ _ _ _ _
theorem OpcodeByte.addCS (rd rs1 rs2 : Reg) : Statement (.addCS rd rs1 rs2) := opField_encodeR _ _ _ _ _ _ _
theorem OpcodeByte.addOS (rd rs1 rs2 : Reg) : Statement (.addOS rd rs1 rs2) := opField_encodeR _ _ _ _ _ _ _
theorem OpcodeByte.addSatS (rd rs1 rs2 : Reg) : Statement (.addSatS rd rs1 rs2) := opField_encodeR _ _ _ _ _ _ _
theorem OpcodeByte.addS (rd rs1 rs2 : Reg) : Statement (.addS rd rs1 rs2) := opField_encodeR _ _ _ _ _ _ _
theorem OpcodeByte.subW (rd rs1 rs2 : Reg) : Statement (.subW rd rs1 rs2) := opField_encodeR _ _ _ _ _ _ _
theorem OpcodeByte.subC (rd rs1 rs2 : Reg) : Statement (.subC rd rs1 rs2) := opField_encodeR _ _ _ _ _ _ _
theorem OpcodeByte.subO (rd rs1 rs2 : Reg) : Statement (.subO rd rs1 rs2) := opField_encodeR _ _ _ _ _ _ _
theorem OpcodeByte.subSat (rd rs1 rs2 : Reg) : Statement (.subSat rd rs1 rs2) := opField_encodeR _ _ _ _ _ _ _
theorem OpcodeByte.sub (rd rs1 rs2 : Reg) : Statement (.sub rd rs1 rs2) := opField_encodeR _ _ _ _ _ _ _
theorem OpcodeByte.subWS (rd rs1 rs2 : Reg) : Statement (.subWS rd rs1 rs2) := opField_encodeR _ _ _ _ _ _ _
theorem OpcodeByte.subCS (rd rs1 rs2 : Reg) : Statement (.subCS rd rs1 rs2) := opField_encodeR _ _ _ _ _ _ _
theorem OpcodeByte.subOS (rd rs1 rs2 : Reg) : Statement (.subOS rd rs1 rs2) := opField_encodeR _ _ _ _ _ _ _
theorem OpcodeByte.subSatS (rd rs1 rs2 : Reg) : Statement (.subSatS rd rs1 rs2) := opField_encodeR _ _ _ _ _ _ _
theorem OpcodeByte.subS (rd rs1 rs2 : Reg) : Statement (.subS rd rs1 rs2) := opField_encodeR _ _ _ _ _ _ _
theorem OpcodeByte.mulW (rd rs1 rs2 : Reg) : Statement (.mulW rd rs1 rs2) := opField_encodeR _ _ _ _ _ _ _
theorem OpcodeByte.mulC (rd rs1 rs2 : Reg) : Statement (.mulC rd rs1 rs2) := opField_encodeR _ _ _ _ _ _ _
theorem OpcodeByte.mulO (rd rs1 rs2 : Reg) : Statement (.mulO rd rs1 rs2) := opField_encodeR _ _ _ _ _ _ _
theorem OpcodeByte.mulSat (rd rs1 rs2 : Reg) : Statement (.mulSat rd rs1 rs2) := opField_encodeR _ _ _ _ _ _ _
theorem OpcodeByte.mul (rd rs1 rs2 : Reg) : Statement (.mul rd rs1 rs2) := opField_encodeR _ _ _ _ _ _ _
theorem OpcodeByte.mulWS (rd rs1 rs2 : Reg) : Statement (.mulWS rd rs1 rs2) := opField_encodeR _ _ _ _ _ _ _
theorem OpcodeByte.mulCS (rd rs1 rs2 : Reg) : Statement (.mulCS rd rs1 rs2) := opField_encodeR _ _ _ _ _ _ _
theorem OpcodeByte.mulOS (rd rs1 rs2 : Reg) : Statement (.mulOS rd rs1 rs2) := opField_encodeR _ _ _ _ _ _ _
theorem OpcodeByte.mulSatS (rd rs1 rs2 : Reg) : Statement (.mulSatS rd rs1 rs2) := opField_encodeR _ _ _ _ _ _ _
theorem OpcodeByte.mulS (rd rs1 rs2 : Reg) : Statement (.mulS rd rs1 rs2) := opField_encodeR _ _ _ _ _ _ _
theorem OpcodeByte.divW (rd rs1 rs2 : Reg) : Statement (.divW rd rs1 rs2) := opField_encodeR _ _ _ _ _ _ _
theorem OpcodeByte.divC (rd rs1 rs2 : Reg) : Statement (.divC rd rs1 rs2) := opField_encodeR _ _ _ _ _ _ _
theorem OpcodeByte.divO (rd rs1 rs2 : Reg) : Statement (.divO rd rs1 rs2) := opField_encodeR _ _ _ _ _ _ _
theorem OpcodeByte.divSat (rd rs1 rs2 : Reg) : Statement (.divSat rd rs1 rs2) := opField_encodeR _ _ _ _ _ _ _
theorem OpcodeByte.div (rd rs1 rs2 : Reg) : Statement (.div rd rs1 rs2) := opField_encodeR _ _ _ _ _ _ _
theorem OpcodeByte.divWS (rd rs1 rs2 : Reg) : Statement (.divWS rd rs1 rs2) := opField_encodeR _ _ _ _ _ _ _
theorem OpcodeByte.divCS (rd rs1 rs2 : Reg) : Statement (.divCS rd rs1 rs2) := opField_encodeR _ _ _ _ _ _ _
theorem OpcodeByte.divOS (rd rs1 rs2 : Reg) : Statement (.divOS rd rs1 rs2) := opField_encodeR _ _ _ _ _ _ _
theorem OpcodeByte.divSatS (rd rs1 rs2 : Reg) : Statement (.divSatS rd rs1 rs2) := opField_encodeR _ _ _ _ _ _ _
theorem OpcodeByte.divS (rd rs1 rs2 : Reg) : Statement (.divS rd rs1 rs2) := opField_encodeR _ _ _ _ _ _ _
theorem OpcodeByte.remW (rd rs1 rs2 : Reg) : Statement (.remW rd rs1 rs2) := opField_encodeR _ _ _ _ _ _ _
theorem OpcodeByte.remC (rd rs1 rs2 : Reg) : Statement (.remC rd rs1 rs2) := opField_encodeR _ _ _ _ _ _ _
theorem OpcodeByte.remO (rd rs1 rs2 : Reg) : Statement (.remO rd rs1 rs2) := opField_encodeR _ _ _ _ _ _ _
theorem OpcodeByte.rem (rd rs1 rs2 : Reg) : Statement (.rem rd rs1 rs2) := opField_encodeR _ _ _ _ _ _ _
theorem OpcodeByte.remWS (rd rs1 rs2 : Reg) : Statement (.remWS rd rs1 rs2) := opField_encodeR _ _ _ _ _ _ _
theorem OpcodeByte.remCS (rd rs1 rs2 : Reg) : Statement (.remCS rd rs1 rs2) := opField_encodeR _ _ _ _ _ _ _
theorem OpcodeByte.remOS (rd rs1 rs2 : Reg) : Statement (.remOS rd rs1 rs2) := opField_encodeR _ _ _ _ _ _ _
theorem OpcodeByte.remS (rd rs1 rs2 : Reg) : Statement (.remS rd rs1 rs2) := opField_encodeR _ _ _ _ _ _ _
theorem OpcodeByte.diveW (rd rs1 rs2 : Reg) : Statement (.diveW rd rs1 rs2) := opField_encodeR _ _ _ _ _ _ _
theorem OpcodeByte.diveC (rd rs1 rs2 : Reg) : Statement (.diveC rd rs1 rs2) := opField_encodeR _ _ _ _ _ _ _
theorem OpcodeByte.diveO (rd rs1 rs2 : Reg) : Statement (.diveO rd rs1 rs2) := opField_encodeR _ _ _ _ _ _ _
theorem OpcodeByte.diveSat (rd rs1 rs2 : Reg) : Statement (.diveSat rd rs1 rs2) := opField_encodeR _ _ _ _ _ _ _
theorem OpcodeByte.dive (rd rs1 rs2 : Reg) : Statement (.dive rd rs1 rs2) := opField_encodeR _ _ _ _ _ _ _
theorem OpcodeByte.diveWS (rd rs1 rs2 : Reg) : Statement (.diveWS rd rs1 rs2) := opField_encodeR _ _ _ _ _ _ _
theorem OpcodeByte.diveCS (rd rs1 rs2 : Reg) : Statement (.diveCS rd rs1 rs2) := opField_encodeR _ _ _ _ _ _ _
theorem OpcodeByte.diveOS (rd rs1 rs2 : Reg) : Statement (.diveOS rd rs1 rs2) := opField_encodeR _ _ _ _ _ _ _
theorem OpcodeByte.diveSatS (rd rs1 rs2 : Reg) : Statement (.diveSatS rd rs1 rs2) := opField_encodeR _ _ _ _ _ _ _
theorem OpcodeByte.diveS (rd rs1 rs2 : Reg) : Statement (.diveS rd rs1 rs2) := opField_encodeR _ _ _ _ _ _ _
theorem OpcodeByte.remeW (rd rs1 rs2 : Reg) : Statement (.remeW rd rs1 rs2) := opField_encodeR _ _ _ _ _ _ _
theorem OpcodeByte.remeC (rd rs1 rs2 : Reg) : Statement (.remeC rd rs1 rs2) := opField_encodeR _ _ _ _ _ _ _
theorem OpcodeByte.remeO (rd rs1 rs2 : Reg) : Statement (.remeO rd rs1 rs2) := opField_encodeR _ _ _ _ _ _ _
theorem OpcodeByte.reme (rd rs1 rs2 : Reg) : Statement (.reme rd rs1 rs2) := opField_encodeR _ _ _ _ _ _ _
theorem OpcodeByte.remeWS (rd rs1 rs2 : Reg) : Statement (.remeWS rd rs1 rs2) := opField_encodeR _ _ _ _ _ _ _
theorem OpcodeByte.remeCS (rd rs1 rs2 : Reg) : Statement (.remeCS rd rs1 rs2) := opField_encodeR _ _ _ _ _ _ _
theorem OpcodeByte.remeOS (rd rs1 rs2 : Reg) : Statement (.remeOS rd rs1 rs2) := opField_encodeR _ _ _ _ _ _ _
theorem OpcodeByte.remeS (rd rs1 rs2 : Reg) : Statement (.remeS rd rs1 rs2) := opField_encodeR _ _ _ _ _ _ _
theorem OpcodeByte.gcd (rd rs1 rs2 : Reg) : Statement (.gcd rd rs1 rs2) := opField_encodeR _ _ _ _ _ _ _
theorem OpcodeByte.log2C (xr rs1 : Reg) : Statement (.log2C xr rs1) := opField_encodeR _ _ _ _ _ _ _
theorem OpcodeByte.log2 (xr rs1 : Reg) : Statement (.log2 xr rs1) := opField_encodeR _ _ _ _ _ _ _
theorem OpcodeByte.npotW (rd rs1 : Reg) : Statement (.npotW rd rs1) := opField_encodeR _ _ _ _ _ _ _
theorem OpcodeByte.npotC (rd rs1 : Reg) : Statement (.npotC rd rs1) := opField_encodeR _ _ _ _ _ _ _
theorem OpcodeByte.npotO (rd rs1 : Reg) : Statement (.npotO rd rs1) := opField_encodeR _ _ _ _ _ _ _
theorem OpcodeByte.npot (rd rs1 : Reg) : Statement (.npot rd rs1) := opField_encodeR _ _ _ _ _ _ _
theorem OpcodeByte.negW (rd rs1 : Reg) : Statement (.negW rd rs1) := opField_encodeR _ _ _ _ _ _ _
theorem OpcodeByte.negWS (rd rs1 : Reg) : Statement (.negWS rd rs1) := opField_encodeR _ _ _ _ _ _ _
theorem OpcodeByte.negCS (rd rs1 : Reg) : Statement (.negCS rd rs1) := opField_encodeR _ _ _ _ _ _ _
theorem OpcodeByte.negOS (rd rs1 : Reg) : Statement (.negOS rd rs1) := opField_encodeR _ _ _ _ _ _ _
theorem OpcodeByte.negSatS (rd rs1 : Reg) : Statement (.negSatS rd rs1) := opField_encodeR _ _ _ _ _ _ _
theorem OpcodeByte.negS (rd rs1 : Reg) : Statement (.negS rd rs1) := opField_encodeR _ _ _ _ _ _ _
theorem OpcodeByte.absWS (rd rs1 : Reg) : Statement (.absWS rd rs1) := opField_encodeR _ _ _ _ _ _ _
theorem OpcodeByte.absCS (rd rs1 : Reg) : Statement (.absCS rd rs1) := opField_encodeR _ _ _ _ _ _ _
theorem OpcodeByte.absOS (rd rs1 : Reg) : Statement (.absOS rd rs1) := opField_encodeR _ _ _ _ _ _ _
theorem OpcodeByte.absSatS (rd rs1 : Reg) : Statement (.absSatS rd rs1) := opField_encodeR _ _ _ _ _ _ _
theorem OpcodeByte.absS (rd rs1 : Reg) : Statement (.absS rd rs1) := opField_encodeR _ _ _ _ _ _ _

end Sys2Proof.Laws
end

