-- ==== Sys2Proof/Tests/Slice0.lean ====
section
/-! SUPPORT. The model's own tests: the well-formedness check refuses an ill-formed term, words written out
from the spec's bit fields decode to their commands, each command does what the spec's corner cases say on
one small state, and the hypotheses of every statement can be met. Every expected value is worked out from
the spec, none is the model's own answer. -/

namespace Sys2Proof.Tests

open Sys2Proof.Machine Sys2Proof.Claims

/-! ### Well-formedness -/

/-- `RCS` of a number above 6 has no encoding (R29, R79): the check refuses it. -/
theorem test_wellFormed_refuses_csr_7 : (Instr.rcs 7).wellFormed = false := by decide

/-- The numbers 0 to 6 pass, and so does a digit index of any size (R122). -/
theorem test_wellFormed_accepts :
    (Instr.rcs 6).wellFormed = true ∧ (Instr.ldd 0 0xFFFF).wellFormed = true := by decide

/-! ### Decoding, one word for each command, made from the bit positions of R73 to R75 and the opcode map of
R78 with `rd = 3`, `rs1 = 1`, `rs2 = 6`, `xr = 5` where the command uses them -/

/-- A word decodes to a command. -/
def decodesTo (p : Word × Instr) : Bool :=
  match decode p.1 with
  | .ok i => i == p.2
  | .error _ => false

theorem test_decode_Data : List.all
    [(0x00000000, .nop), (0x0000B001, .mov 3 1), (0x00043002, .ldd 3 4), (0x00043003, .std 3 4),
      (0x00003004, .lds 3), (0x00A00005, .ldx 5), (0x00A00006, .stx 5), (0x00040007, .rcs 4),
      (0x00000008, .fclr)] decodesTo = true := by
  decide

theorem test_decode_Compare : List.all
    [(0x00188010, .cmp 1 6), (0x00188810, .cmpS 1 6), (0x00188011, .eq 1 6), (0x00008012, .isz 1),
      (0x00008013, .isone 1), (0x00008014, .isp2 1), (0x00008015, .isneg 1), (0x00A08016, .blen 5 1),
      (0x00A08017, .bit 1 5)] decodesTo = true := by
  decide

theorem test_decode_Shift : List.all
    [(0x00A0B020, .shlW 3 1 5), (0x00A0B120, .shlC 3 1 5), (0x00A0B220, .shlO 3 1 5),
      (0x00A0B420, .shl 3 1 5), (0x00A0B021, .shrW 3 1 5), (0x00A0B121, .shrC 3 1 5),
      (0x00A0B221, .shrO 3 1 5), (0x00A0B421, .shr 3 1 5), (0x00A0B821, .shrWS 3 1 5),
      (0x00A0B921, .shrCS 3 1 5), (0x00A0BA21, .shrOS 3 1 5), (0x00A0BC21, .shrS 3 1 5),
      (0x00A0B022, .rotl 3 1 5), (0x00A0B023, .rotr 3 1 5)] decodesTo = true := by
  decide

theorem test_decode_Count : List.all
    [(0x00A08024, .clz 5 1), (0x00A08025, .ctz 5 1), (0x00A08026, .clo 5 1), (0x00A08027, .cto 5 1),
      (0x00A08028, .cnt1 5 1), (0x00A08029, .cnt0 5 1), (0x0000B02A, .swapb 3 1),
      (0x0000B02B, .revb 3 1), (0x0000B02C, .not 3 1)] decodesTo = true := by
  decide

theorem test_decode_AddSub : List.all
    [(0x0018B030, .addW 3 1 6), (0x0018B130, .addC 3 1 6), (0x0018B230, .addO 3 1 6),
      (0x0018B330, .addSat 3 1 6), (0x0018B430, .add 3 1 6), (0x0018B830, .addWS 3 1 6),
      (0x0018B930, .addCS 3 1 6), (0x0018BA30, .addOS 3 1 6), (0x0018BB30, .addSatS 3 1 6),
      (0x0018BC30, .addS 3 1 6), (0x0018B031, .subW 3 1 6), (0x0018B131, .subC 3 1 6),
      (0x0018B231, .subO 3 1 6), (0x0018B331, .subSat 3 1 6), (0x0018B431, .sub 3 1 6),
      (0x0018B831, .subWS 3 1 6), (0x0018B931, .subCS 3 1 6), (0x0018BA31, .subOS 3 1 6),
      (0x0018BB31, .subSatS 3 1 6), (0x0018BC31, .subS 3 1 6)] decodesTo = true := by
  decide

theorem test_decode_Multiply : List.all
    [(0x0018B032, .mulW 3 1 6), (0x0018B132, .mulC 3 1 6), (0x0018B232, .mulO 3 1 6),
      (0x0018B332, .mulSat 3 1 6), (0x0018B432, .mul 3 1 6), (0x0018B832, .mulWS 3 1 6),
      (0x0018B932, .mulCS 3 1 6), (0x0018BA32, .mulOS 3 1 6), (0x0018BB32, .mulSatS 3 1 6),
      (0x0018BC32, .mulS 3 1 6)] decodesTo = true := by
  decide

theorem test_decode_Divide : List.all
    [(0x0018B033, .divW 3 1 6), (0x0018B133, .divC 3 1 6), (0x0018B233, .divO 3 1 6),
      (0x0018B333, .divSat 3 1 6), (0x0018B433, .div 3 1 6), (0x0018B833, .divWS 3 1 6),
      (0x0018B933, .divCS 3 1 6), (0x0018BA33, .divOS 3 1 6), (0x0018BB33, .divSatS 3 1 6),
      (0x0018BC33, .divS 3 1 6), (0x0018B034, .remW 3 1 6), (0x0018B134, .remC 3 1 6),
      (0x0018B234, .remO 3 1 6), (0x0018B434, .rem 3 1 6), (0x0018B834, .remWS 3 1 6),
      (0x0018B934, .remCS 3 1 6), (0x0018BA34, .remOS 3 1 6), (0x0018BC34, .remS 3 1 6),
      (0x0018B035, .diveW 3 1 6), (0x0018B135, .diveC 3 1 6), (0x0018B235, .diveO 3 1 6),
      (0x0018B335, .diveSat 3 1 6), (0x0018B435, .dive 3 1 6), (0x0018B835, .diveWS 3 1 6),
      (0x0018B935, .diveCS 3 1 6), (0x0018BA35, .diveOS 3 1 6), (0x0018BB35, .diveSatS 3 1 6),
      (0x0018BC35, .diveS 3 1 6), (0x0018B036, .remeW 3 1 6), (0x0018B136, .remeC 3 1 6),
      (0x0018B236, .remeO 3 1 6), (0x0018B436, .reme 3 1 6), (0x0018B836, .remeWS 3 1 6),
      (0x0018B936, .remeCS 3 1 6), (0x0018BA36, .remeOS 3 1 6), (0x0018BC36, .remeS 3 1 6)] decodesTo = true := by
  decide

theorem test_decode_GcdLogNpot : List.all
    [(0x0018B037, .gcd 3 1 6), (0x00A08138, .log2C 5 1), (0x00A08438, .log2 5 1),
      (0x0000B039, .npotW 3 1), (0x0000B139, .npotC 3 1), (0x0000B239, .npotO 3 1),
      (0x0000B439, .npot 3 1)] decodesTo = true := by
  decide

theorem test_decode_TwosComplement : List.all
    [(0x0000B040, .negW 3 1), (0x0000B840, .negWS 3 1), (0x0000B940, .negCS 3 1),
      (0x0000BA40, .negOS 3 1), (0x0000BB40, .negSatS 3 1), (0x0000BC40, .negS 3 1),
      (0x0000B841, .absWS 3 1), (0x0000B941, .absCS 3 1), (0x0000BA41, .absOS 3 1),
      (0x0000BB41, .absSatS 3 1), (0x0000BC41, .absS 3 1)] decodesTo = true := by
  decide

/-- Words of every kind R79 lists are illegal, each with the check that refuses it: an opcode outside the
map, a must-be-zero bit, an unused register field, a `VAR` the opcode does not have (5 to 7 reserved,
saturating shifts), a `SGN` it does not have, `LDS` with an index, `RCS` with a register or a number above
6. -/
theorem test_decode_illegal :
    [0x000000FF, 0x00000009, 0x01000030, 0x00200030, 0x00000100, 0x00000530, 0x00000320, 0x00000820,
      0x00000041, 0x00010004, 0x00001007, 0x00070007].map decode =
    ([.unknownOpcode, .unknownOpcode, .mustBeZero, .mustBeZero, .mustBeZero, .variant, .variant, .sign,
      .sign, .mustBeZero, .mustBeZero, .operand] : List Illegal).map .error := by decide

/-- The written form (R82), on the spec's own examples. -/
theorem test_written :
    written (.mulCS 0 0 1) (⟨0, 0, 0⟩ : Request 64) = some "MUL.C.S V0, V0, V1" ∧
    written (.shrOS 2 2 1) (⟨0, 0, 0⟩ : Request 64) = some "SHR.O.S V2, V2, X1" ∧
    written (.ldd 1 3) (⟨0, 0xFFFFFFFFFFFFFFFF, 0⟩ : Request 64) =
      some "LDD V1[3], #18446744073709551615" ∧
    written (.ldx 1) (⟨0, 0, 17⟩ : Request 64) = some "LDX X1, #17" ∧
    written (.bit 1 3) (⟨0, 0, 0⟩ : Request 64) = some "BIT V1, X3" ∧
    written (.rcs 0) (⟨0, 0, 0⟩ : Request 64) = some "RCS FLAGS" ∧
    written (.fclr) (⟨0, 0, 0⟩ : Request 64) = some "FCLR" := by decide

/-! ### One command on a small state -/

/-- `W = 8`, `N = 2`: values of 16 bits, `SMIN = 0x8000`, `SMAX = 0x7FFF`. -/
def tiny : Instance := { logW := 3, n := 2 }

/-- `V1 = a`, `V2 = b`, `V3 = 0x1234`, `X1 = e`, `X2 = 119`, `FLAGS = f`, data-in digit 0xC3 and exponent
0xABCDE, command word 0x55. -/
def given (checked : Bool) (a b e f : Nat) : State where
  inst := tiny
  v := #v[zeroV _ _, dig _ _ a, dig _ _ b, dig _ _ 0x1234, zeroV _ _, zeroV _ _, zeroV _ _, zeroV _ _]
  x := #v[0, BitVec.ofNat 32 e, 119, 0, 0, 0, 0, 0]
  flags := BitVec.ofNat 32 f
  fault := 0
  fcmd := 0
  cfg := cfgWord checked
  request := ⟨0x55, 0xC3, 0xABCDE⟩
  inputs := []
  responses := []
  strap := checked
  draws := 0

/-- What a command leaves in `V3`, `X2`, `FLAGS` and `FAULT`. -/
def left (i : Instr) (s : State) : Option (Nat × Nat × Nat × Nat) :=
  match exec i s with
  | .next t => some ((t.reg 3).val, (t.expo 2).toNat, t.flags.toNat, t.fault.toNat)
  | .fault _ => none
  | .refused _ => none

/-- What a command answers: the status and the two data outputs. -/
def answer (i : Instr) (s : State) : Option (Status × Nat × Nat) :=
  match exec i s with
  | .next t => t.responses.head?.map fun r => (r.status, r.doutD.toNat, r.doutX.toNat)
  | .fault _ => none
  | .refused _ => none

/-- The commands of a list, each on the same state, leave what the list says. -/
def leave (s : State) (l : List (Instr × Nat × Nat × Nat × Nat)) : Bool :=
  l.all fun p => left p.1 s == some p.2

/-- `UMAX + ONE` (R202, scenario S2), and `0xFF + 1 = [0, 1]` with its carry across the digits. -/
theorem test_add_unsigned :
    leave (given true 0xFFFF 1 0 0)
      [(.addW 3 1 2, 0, 119, 0, 0),
        (.addC 3 1 2, 0x1234, 119, 2, 0),
        (.addO 3 1 2, 0, 119, 1, 0),
        (.addSat 3 1 2, 0xFFFF, 119, 0, 0),
        (.add 3 1 2, 0x1234, 119, 0, 0x11)] = true ∧
    leave (given false 0xFFFF 1 0 0)
      [(.add 3 1 2, 0, 119, 0, 0)] = true ∧
    leave (given true 0xFF 1 0 31)
      [(.addW 3 1 2, 0x100, 119, 31, 0),
        (.addC 3 1 2, 0x100, 119, 29, 0),
        (.addO 3 1 2, 0x100, 119, 30, 0),
        (.addSat 3 1 2, 0x100, 119, 31, 0),
        (.add 3 1 2, 0x100, 119, 31, 0)] = true := by
  decide

/-- `SMAX + ONE` and `SMIN + MINUS_ONE` (R204); `MINUS_ONE + ONE` does not overflow. -/
theorem test_add_signed :
    leave (given true 0x7FFF 1 0 0)
      [(.addWS 3 1 2, 0x8000, 119, 0, 0),
        (.addCS 3 1 2, 0x1234, 119, 2, 0),
        (.addOS 3 1 2, 0x8000, 119, 1, 0),
        (.addSatS 3 1 2, 0x7FFF, 119, 0, 0),
        (.addS 3 1 2, 0x1234, 119, 0, 0x11)] = true ∧
    leave (given false 0x8000 0xFFFF 0 0)
      [(.addS 3 1 2, 0x7FFF, 119, 0, 0)] = true ∧
    leave (given true 0x8000 0xFFFF 0 0)
      [(.addSatS 3 1 2, 0x8000, 119, 0, 0)] = true ∧
    leave (given true 0xFFFF 1 0 31)
      [(.addWS 3 1 2, 0, 119, 31, 0),
        (.addCS 3 1 2, 0, 119, 29, 0),
        (.addOS 3 1 2, 0, 119, 30, 0),
        (.addSatS 3 1 2, 0, 119, 31, 0),
        (.addS 3 1 2, 0, 119, 31, 0)] = true := by
  decide

/-- `ZERO - ONE` and `[0, 1] - [1, 0] = [0xFF, 0]` (R203). -/
theorem test_sub_unsigned :
    leave (given true 0 1 0 0)
      [(.subW 3 1 2, 0xFFFF, 119, 0, 0),
        (.subC 3 1 2, 0x1234, 119, 2, 0),
        (.subO 3 1 2, 0xFFFF, 119, 1, 0),
        (.subSat 3 1 2, 0, 119, 0, 0),
        (.sub 3 1 2, 0x1234, 119, 0, 0x11)] = true ∧
    leave (given false 0 1 0 0)
      [(.sub 3 1 2, 0xFFFF, 119, 0, 0)] = true ∧
    leave (given true 0x100 1 0 31)
      [(.subW 3 1 2, 0xFF, 119, 31, 0),
        (.subC 3 1 2, 0xFF, 119, 29, 0),
        (.subO 3 1 2, 0xFF, 119, 30, 0),
        (.subSat 3 1 2, 0xFF, 119, 31, 0),
        (.sub 3 1 2, 0xFF, 119, 31, 0)] = true := by
  decide

/-- `SMIN - ONE`, `ZERO - SMIN`, and `ZERO - ONE = MINUS_ONE` without overflow (R205). -/
theorem test_sub_signed :
    leave (given true 0x8000 1 0 0)
      [(.subWS 3 1 2, 0x7FFF, 119, 0, 0),
        (.subCS 3 1 2, 0x1234, 119, 2, 0),
        (.subOS 3 1 2, 0x7FFF, 119, 1, 0),
        (.subSatS 3 1 2, 0x8000, 119, 0, 0),
        (.subS 3 1 2, 0x1234, 119, 0, 0x11)] = true ∧
    leave (given true 0 0x8000 0 0)
      [(.subWS 3 1 2, 0x8000, 119, 0, 0),
        (.subCS 3 1 2, 0x1234, 119, 2, 0),
        (.subOS 3 1 2, 0x8000, 119, 1, 0),
        (.subSatS 3 1 2, 0x7FFF, 119, 0, 0),
        (.subS 3 1 2, 0x1234, 119, 0, 0x11)] = true ∧
    leave (given true 0 1 0 31)
      [(.subWS 3 1 2, 0xFFFF, 119, 31, 0),
        (.subCS 3 1 2, 0xFFFF, 119, 29, 0),
        (.subOS 3 1 2, 0xFFFF, 119, 30, 0),
        (.subSatS 3 1 2, 0xFFFF, 119, 31, 0),
        (.subS 3 1 2, 0xFFFF, 119, 31, 0)] = true := by
  decide

/-- `2^(BITS/2)` squared, found by the dropped product alone; `UMAX * UMAX`; `0xFF * 0xFF = [1, 0xFE]` (R222). -/
theorem test_mul_unsigned :
    leave (given true 0x100 0x100 0 0)
      [(.mulW 3 1 2, 0, 119, 0, 0),
        (.mulC 3 1 2, 0x1234, 119, 2, 0),
        (.mulO 3 1 2, 0, 119, 1, 0),
        (.mulSat 3 1 2, 0xFFFF, 119, 0, 0),
        (.mul 3 1 2, 0x1234, 119, 0, 0x11)] = true ∧
    leave (given false 0xFFFF 0xFFFF 0 0)
      [(.mul 3 1 2, 1, 119, 0, 0)] = true ∧
    leave (given true 0xFF 0xFF 0 31)
      [(.mulW 3 1 2, 0xFE01, 119, 31, 0),
        (.mulC 3 1 2, 0xFE01, 119, 29, 0),
        (.mulO 3 1 2, 0xFE01, 119, 30, 0),
        (.mulSat 3 1 2, 0xFE01, 119, 31, 0),
        (.mul 3 1 2, 0xFE01, 119, 31, 0)] = true := by
  decide

/-- `SMIN * MINUS_ONE`, `SMIN * ONE`, `-3 * 5` (R224). -/
theorem test_mul_signed :
    leave (given true 0x8000 0xFFFF 0 0)
      [(.mulWS 3 1 2, 0x8000, 119, 0, 0),
        (.mulCS 3 1 2, 0x1234, 119, 2, 0),
        (.mulOS 3 1 2, 0x8000, 119, 1, 0),
        (.mulSatS 3 1 2, 0x7FFF, 119, 0, 0),
        (.mulS 3 1 2, 0x1234, 119, 0, 0x11)] = true ∧
    leave (given true 0x8000 1 0 31)
      [(.mulWS 3 1 2, 0x8000, 119, 31, 0),
        (.mulCS 3 1 2, 0x8000, 119, 29, 0),
        (.mulOS 3 1 2, 0x8000, 119, 30, 0),
        (.mulSatS 3 1 2, 0x8000, 119, 31, 0),
        (.mulS 3 1 2, 0x8000, 119, 31, 0)] = true ∧
    leave (given true 0xFFFD 5 0 31)
      [(.mulWS 3 1 2, 0xFFF1, 119, 31, 0),
        (.mulCS 3 1 2, 0xFFF1, 119, 29, 0),
        (.mulOS 3 1 2, 0xFFF1, 119, 30, 0),
        (.mulSatS 3 1 2, 0xFFF1, 119, 31, 0),
        (.mulS 3 1 2, 0xFFF1, 119, 31, 0)] = true := by
  decide

/-- `0x2EE1 = 100 * 120 + 1`: quotient and remainder, and the Euclidean forms the same (R243 to R246). -/
theorem test_div_unsigned :
    leave (given true 0x2EE1 100 0 31)
      [(.divW 3 1 2, 0x78, 119, 31, 0),
        (.divC 3 1 2, 0x78, 119, 29, 0),
        (.divO 3 1 2, 0x78, 119, 30, 0),
        (.divSat 3 1 2, 0x78, 119, 31, 0),
        (.div 3 1 2, 0x78, 119, 31, 0),
        (.diveW 3 1 2, 0x78, 119, 31, 0),
        (.diveC 3 1 2, 0x78, 119, 29, 0),
        (.diveO 3 1 2, 0x78, 119, 30, 0),
        (.diveSat 3 1 2, 0x78, 119, 31, 0),
        (.dive 3 1 2, 0x78, 119, 31, 0),
        (.remW 3 1 2, 1, 119, 31, 0),
        (.remC 3 1 2, 1, 119, 29, 0),
        (.remO 3 1 2, 1, 119, 30, 0),
        (.rem 3 1 2, 1, 119, 31, 0),
        (.remeW 3 1 2, 1, 119, 31, 0),
        (.remeC 3 1 2, 1, 119, 29, 0),
        (.remeO 3 1 2, 1, 119, 30, 0),
        (.reme 3 1 2, 1, 119, 31, 0)] = true := by
  decide

/-- `-7` by `2`: -3 and -1 toward zero, -4 and 1 Euclidean (R247 to R250). -/
theorem test_div_signed :
    leave (given true 0xFFF9 2 0 31)
      [(.divWS 3 1 2, 0xFFFD, 119, 31, 0),
        (.divCS 3 1 2, 0xFFFD, 119, 29, 0),
        (.divOS 3 1 2, 0xFFFD, 119, 30, 0),
        (.divSatS 3 1 2, 0xFFFD, 119, 31, 0),
        (.divS 3 1 2, 0xFFFD, 119, 31, 0),
        (.remWS 3 1 2, 0xFFFF, 119, 31, 0),
        (.remCS 3 1 2, 0xFFFF, 119, 29, 0),
        (.remOS 3 1 2, 0xFFFF, 119, 30, 0),
        (.remS 3 1 2, 0xFFFF, 119, 31, 0),
        (.diveWS 3 1 2, 0xFFFC, 119, 31, 0),
        (.diveCS 3 1 2, 0xFFFC, 119, 29, 0),
        (.diveOS 3 1 2, 0xFFFC, 119, 30, 0),
        (.diveSatS 3 1 2, 0xFFFC, 119, 31, 0),
        (.diveS 3 1 2, 0xFFFC, 119, 31, 0),
        (.remeWS 3 1 2, 1, 119, 31, 0),
        (.remeCS 3 1 2, 1, 119, 29, 0),
        (.remeOS 3 1 2, 1, 119, 30, 0),
        (.remeS 3 1 2, 1, 119, 31, 0)] = true := by
  decide

/-- `-7` by `-2`: 3 and -1 toward zero, 4 and 1 Euclidean; `7` by `-2`: -3 and 1 both ways (R247 to R250). -/
theorem test_div_signed_negative_divisor :
    leave (given true 0xFFF9 0xFFFE 0 0)
      [(.divS 3 1 2, 3, 119, 0, 0),
        (.remS 3 1 2, 0xFFFF, 119, 0, 0),
        (.diveS 3 1 2, 4, 119, 0, 0),
        (.remeS 3 1 2, 1, 119, 0, 0)] = true ∧
    leave (given true 7 0xFFFE 0 0)
      [(.divS 3 1 2, 0xFFFD, 119, 0, 0),
        (.remS 3 1 2, 1, 119, 0, 0),
        (.diveS 3 1 2, 0xFFFD, 119, 0, 0),
        (.remeS 3 1 2, 1, 119, 0, 0)] = true := by
  decide

/-- `SMIN` by `MINUS_ONE`, the one overflow (R247 to R250). -/
theorem test_div_overflow :
    leave (given true 0x8000 0xFFFF 0 0)
      [(.divWS 3 1 2, 0x8000, 119, 0, 0),
        (.divCS 3 1 2, 0x1234, 119, 2, 0),
        (.divOS 3 1 2, 0x8000, 119, 1, 0),
        (.divSatS 3 1 2, 0x7FFF, 119, 0, 0),
        (.divS 3 1 2, 0x1234, 119, 0, 0x11),
        (.remWS 3 1 2, 0, 119, 0, 0),
        (.remCS 3 1 2, 0x1234, 119, 2, 0),
        (.remOS 3 1 2, 0, 119, 1, 0),
        (.remS 3 1 2, 0x1234, 119, 0, 0x11),
        (.diveWS 3 1 2, 0x8000, 119, 0, 0),
        (.diveCS 3 1 2, 0x1234, 119, 2, 0),
        (.diveOS 3 1 2, 0x8000, 119, 1, 0),
        (.diveSatS 3 1 2, 0x7FFF, 119, 0, 0),
        (.diveS 3 1 2, 0x1234, 119, 0, 0x11),
        (.remeWS 3 1 2, 0, 119, 0, 0),
        (.remeCS 3 1 2, 0x1234, 119, 2, 0),
        (.remeOS 3 1 2, 0, 119, 1, 0),
        (.remeS 3 1 2, 0x1234, 119, 0, 0x11)] = true ∧
    leave (given false 0x8000 0xFFFF 0 0)
      [(.divS 3 1 2, 0x8000, 119, 0, 0),
        (.remS 3 1 2, 0, 119, 0, 0)] = true := by
  decide

/-- A divisor of zero, every form, in the release mode (R108). -/
theorem test_div_zero :
    leave (given false 7 0 0 0)
      [(.divW 3 1 2, 0x1234, 119, 0, 0x21),
        (.divC 3 1 2, 0x1234, 119, 2, 0),
        (.divO 3 1 2, 0x1234, 119, 0, 0x21),
        (.divSat 3 1 2, 0x1234, 119, 0, 0x21),
        (.div 3 1 2, 0x1234, 119, 0, 0x21),
        (.divWS 3 1 2, 0x1234, 119, 0, 0x21),
        (.divCS 3 1 2, 0x1234, 119, 2, 0),
        (.divOS 3 1 2, 0x1234, 119, 0, 0x21),
        (.divSatS 3 1 2, 0x1234, 119, 0, 0x21),
        (.divS 3 1 2, 0x1234, 119, 0, 0x21),
        (.remW 3 1 2, 0x1234, 119, 0, 0x21),
        (.remC 3 1 2, 0x1234, 119, 2, 0),
        (.remO 3 1 2, 0x1234, 119, 0, 0x21),
        (.rem 3 1 2, 0x1234, 119, 0, 0x21),
        (.remWS 3 1 2, 0x1234, 119, 0, 0x21),
        (.remCS 3 1 2, 0x1234, 119, 2, 0),
        (.remOS 3 1 2, 0x1234, 119, 0, 0x21),
        (.remS 3 1 2, 0x1234, 119, 0, 0x21),
        (.diveW 3 1 2, 0x1234, 119, 0, 0x21),
        (.diveC 3 1 2, 0x1234, 119, 2, 0),
        (.diveO 3 1 2, 0x1234, 119, 0, 0x21),
        (.diveSat 3 1 2, 0x1234, 119, 0, 0x21),
        (.dive 3 1 2, 0x1234, 119, 0, 0x21),
        (.diveWS 3 1 2, 0x1234, 119, 0, 0x21),
        (.diveCS 3 1 2, 0x1234, 119, 2, 0),
        (.diveOS 3 1 2, 0x1234, 119, 0, 0x21),
        (.diveSatS 3 1 2, 0x1234, 119, 0, 0x21),
        (.diveS 3 1 2, 0x1234, 119, 0, 0x21),
        (.remeW 3 1 2, 0x1234, 119, 0, 0x21),
        (.remeC 3 1 2, 0x1234, 119, 2, 0),
        (.remeO 3 1 2, 0x1234, 119, 0, 0x21),
        (.reme 3 1 2, 0x1234, 119, 0, 0x21),
        (.remeWS 3 1 2, 0x1234, 119, 0, 0x21),
        (.remeCS 3 1 2, 0x1234, 119, 2, 0),
        (.remeOS 3 1 2, 0x1234, 119, 0, 0x21),
        (.remeS 3 1 2, 0x1234, 119, 0, 0x21)] = true := by
  decide

/-- `SHL` by 9 moves bits across a digit, by 15 moves bit 0 to the top, by 16 overflows with the amount reduced to 0 (R164). -/
theorem test_shl :
    leave (given true 0x81 0 9 31)
      [(.shlW 3 1 1, 0x200, 119, 31, 0),
        (.shlC 3 1 1, 0x200, 119, 29, 0),
        (.shlO 3 1 1, 0x200, 119, 30, 0),
        (.shl 3 1 1, 0x200, 119, 31, 0)] = true ∧
    leave (given true 0xFFFF 0 15 0)
      [(.shlW 3 1 1, 0x8000, 119, 0, 0)] = true ∧
    leave (given true 0x81 0 16 0)
      [(.shlW 3 1 1, 0x81, 119, 0, 0),
        (.shlC 3 1 1, 0x1234, 119, 2, 0),
        (.shlO 3 1 1, 0x81, 119, 1, 0),
        (.shl 3 1 1, 0x1234, 119, 0, 0x11)] = true ∧
    leave (given false 0x81 0 17 0)
      [(.shl 3 1 1, 0x102, 119, 0, 0)] = true := by
  decide

/-- `SHR` by 9, logical and arithmetic, and by 16 (R165, R166). -/
theorem test_shr :
    leave (given true 0x8400 0 9 31)
      [(.shrW 3 1 1, 0x42, 119, 31, 0),
        (.shrC 3 1 1, 0x42, 119, 29, 0),
        (.shrO 3 1 1, 0x42, 119, 30, 0),
        (.shr 3 1 1, 0x42, 119, 31, 0),
        (.shrWS 3 1 1, 0xFFC2, 119, 31, 0),
        (.shrCS 3 1 1, 0xFFC2, 119, 29, 0),
        (.shrOS 3 1 1, 0xFFC2, 119, 30, 0),
        (.shrS 3 1 1, 0xFFC2, 119, 31, 0)] = true ∧
    leave (given true 0x8400 0 16 0)
      [(.shrW 3 1 1, 0x8400, 119, 0, 0),
        (.shrC 3 1 1, 0x1234, 119, 2, 0),
        (.shrO 3 1 1, 0x8400, 119, 1, 0),
        (.shr 3 1 1, 0x1234, 119, 0, 0x11),
        (.shrWS 3 1 1, 0x8400, 119, 0, 0),
        (.shrCS 3 1 1, 0x1234, 119, 2, 0),
        (.shrOS 3 1 1, 0x8400, 119, 1, 0),
        (.shrS 3 1 1, 0x1234, 119, 0, 0x11)] = true ∧
    leave (given true 0xFFFD 0 1 0)
      [(.shrS 3 1 1, 0xFFFE, 119, 0, 0)] = true := by
  decide

/-- The examples of R168 and R169 at this width, and an amount past `BITS`. -/
theorem test_rotate :
    leave (given true 0x8001 0 1 0)
      [(.rotl 3 1 1, 3, 119, 0, 0),
        (.rotr 3 1 1, 0xC000, 119, 0, 0)] = true ∧
    leave (given true 0x8001 0 25 0)
      [(.rotl 3 1 1, 0x300, 119, 0, 0),
        (.rotr 3 1 1, 0xC0, 119, 0, 0)] = true := by
  decide

/-- `0x00F0`, `0xFF07` and `ZERO` (R182 to R188, R347). -/
theorem test_counts :
    leave (given true 0x00F0 0 0 0)
      [(.clz 2 1, 0x1234, 8, 0, 0),
        (.ctz 2 1, 0x1234, 4, 0, 0),
        (.clo 2 1, 0x1234, 0, 0, 0),
        (.cto 2 1, 0x1234, 0, 0, 0),
        (.cnt1 2 1, 0x1234, 4, 0, 0),
        (.cnt0 2 1, 0x1234, 12, 0, 0),
        (.blen 2 1, 0x1234, 8, 0, 0)] = true ∧
    leave (given true 0xFF07 0 0 0)
      [(.clz 2 1, 0x1234, 0, 0, 0),
        (.ctz 2 1, 0x1234, 0, 0, 0),
        (.clo 2 1, 0x1234, 8, 0, 0),
        (.cto 2 1, 0x1234, 3, 0, 0),
        (.cnt1 2 1, 0x1234, 11, 0, 0),
        (.cnt0 2 1, 0x1234, 5, 0, 0),
        (.blen 2 1, 0x1234, 16, 0, 0)] = true ∧
    leave (given true 0 0 0 0)
      [(.clz 2 1, 0x1234, 16, 0, 0),
        (.ctz 2 1, 0x1234, 16, 0, 0),
        (.cnt0 2 1, 0x1234, 16, 0, 0),
        (.blen 2 1, 0x1234, 0, 0, 0)] = true ∧
    leave (given true 0xFFFF 0 0 0)
      [(.clo 2 1, 0x1234, 16, 0, 0),
        (.cto 2 1, 0x1234, 16, 0, 0),
        (.cnt1 2 1, 0x1234, 16, 0, 0)] = true := by
  decide

/-- `0x1203` byte-reversed, bit-reversed and complemented (R192 to R194). -/
theorem test_reversal :
    leave (given true 0x1203 0 0 0)
      [(.swapb 3 1, 0x312, 119, 0, 0),
        (.revb 3 1, 0xC048, 119, 0, 0),
        (.not 3 1, 0xEDFC, 119, 0, 0)] = true := by
  decide

/-- `2^8` against `0xFF`, decided at digit 1; `MINUS_ONE` against `ZERO` (R142, R143). -/
theorem test_compare :
    leave (given true 0x100 0xFF 0 0)
      [(.cmp 1 2, 0x1234, 119, 16, 0),
        (.cmpS 1 2, 0x1234, 119, 16, 0)] = true ∧
    leave (given true 0xFFFF 0 0 31)
      [(.cmp 1 2, 0x1234, 119, 23, 0),
        (.cmpS 1 2, 0x1234, 119, 7, 0)] = true ∧
    leave (given true 5 5 0 0)
      [(.cmp 1 2, 0x1234, 119, 8, 0),
        (.cmpS 1 2, 0x1234, 119, 8, 0)] = true := by
  decide

/-- Zero, one, a power of two, a negative value, equality (R144 to R148; scenarios S1 and S3). -/
theorem test_tests :
    leave (given true 0 0 0 0)
      [(.isz 1, 0x1234, 119, 4, 0),
        (.isone 1, 0x1234, 119, 0, 0),
        (.isp2 1, 0x1234, 119, 0, 0),
        (.isneg 1, 0x1234, 119, 0, 0),
        (.eq 1 2, 0x1234, 119, 4, 0)] = true ∧
    leave (given true 0x8000 1 0 31)
      [(.isz 1, 0x1234, 119, 27, 0),
        (.isone 1, 0x1234, 119, 27, 0),
        (.isone 2, 0x1234, 119, 31, 0),
        (.isp2 1, 0x1234, 119, 31, 0),
        (.isneg 1, 0x1234, 119, 31, 0),
        (.eq 1 2, 0x1234, 119, 27, 0)] = true ∧
    leave (given true 0x0101 1 0 0)
      [(.isone 1, 0x1234, 119, 0, 0),
        (.isp2 1, 0x1234, 119, 0, 0),
        (.eq 1 2, 0x1234, 119, 0, 0)] = true := by
  decide

/-- Bit `W` is bit 0 of digit 1; the bit below it is 0; an index of `BITS` raises `Index` (R150). -/
theorem test_bit :
    leave (given true 0x100 0 8 0)
      [(.bit 1 1, 0x1234, 119, 4, 0)] = true ∧
    leave (given true 0x100 0 7 31)
      [(.bit 1 1, 0x1234, 119, 27, 0)] = true ∧
    leave (given true 0x100 0 16 0)
      [(.bit 1 1, 0x1234, 119, 0, 0x51)] = true := by
  decide

/-- `gcd(48, 180) = 12`, `gcd(a, 0) = a`, `gcd(0, 0) = 0` (R261). -/
theorem test_gcd :
    leave (given true 48 180 0 31)
      [(.gcd 3 1 2, 0xC, 119, 31, 0)] = true ∧
    leave (given true 0x8000 0 0 0)
      [(.gcd 3 1 2, 0x8000, 119, 0, 0),
        (.gcd 3 2 1, 0x8000, 119, 0, 0),
        (.gcd 3 2 2, 0, 119, 0, 0)] = true := by
  decide

/-- `0x4000` gives 14; zero is absent under C and `LogZero` otherwise (R263). -/
theorem test_log2 :
    leave (given true 0x4000 0 0 31)
      [(.log2C 2 1, 0x1234, 14, 29, 0),
        (.log2 2 1, 0x1234, 14, 31, 0)] = true ∧
    leave (given false 0 0 0 0)
      [(.log2C 2 1, 0x1234, 119, 2, 0),
        (.log2 2 1, 0x1234, 119, 0, 0x31)] = true := by
  decide

/-- `0x3FFF` gives `0x4000`, `2^(BITS-1)` itself, one more overflows, zero gives one (R265). -/
theorem test_npot :
    leave (given true 0x3FFF 0 0 31)
      [(.npotW 3 1, 0x4000, 119, 31, 0),
        (.npotC 3 1, 0x4000, 119, 29, 0),
        (.npotO 3 1, 0x4000, 119, 30, 0),
        (.npot 3 1, 0x4000, 119, 31, 0)] = true ∧
    leave (given true 0x8000 0 0 31)
      [(.npotW 3 1, 0x8000, 119, 31, 0),
        (.npotC 3 1, 0x8000, 119, 29, 0),
        (.npotO 3 1, 0x8000, 119, 30, 0),
        (.npot 3 1, 0x8000, 119, 31, 0)] = true ∧
    leave (given true 0x8001 0 0 0)
      [(.npotW 3 1, 0, 119, 0, 0),
        (.npotC 3 1, 0x1234, 119, 2, 0),
        (.npotO 3 1, 0, 119, 1, 0),
        (.npot 3 1, 0x1234, 119, 0, 0x11)] = true ∧
    leave (given false 0 0 0 0)
      [(.npot 3 1, 1, 119, 0, 0)] = true := by
  decide

/-- `NEG.W` of 1; `NEG.S` of `SMAX` and of `SMIN` (R283, R284). -/
theorem test_neg :
    leave (given true 1 0 0 0)
      [(.negW 3 1, 0xFFFF, 119, 0, 0)] = true ∧
    leave (given true 0x7FFF 0 0 31)
      [(.negWS 3 1, 0x8001, 119, 31, 0),
        (.negCS 3 1, 0x8001, 119, 29, 0),
        (.negOS 3 1, 0x8001, 119, 30, 0),
        (.negSatS 3 1, 0x8001, 119, 31, 0),
        (.negS 3 1, 0x8001, 119, 31, 0)] = true ∧
    leave (given true 0x8000 0 0 0)
      [(.negWS 3 1, 0x8000, 119, 0, 0),
        (.negCS 3 1, 0x1234, 119, 2, 0),
        (.negOS 3 1, 0x8000, 119, 1, 0),
        (.negSatS 3 1, 0x7FFF, 119, 0, 0),
        (.negS 3 1, 0x1234, 119, 0, 0x11)] = true := by
  decide

/-- `ABS.S` of -15 and of `SMIN` (R285). -/
theorem test_abs :
    leave (given true 0xFFF1 0 0 31)
      [(.absWS 3 1, 0xF, 119, 31, 0),
        (.absCS 3 1, 0xF, 119, 29, 0),
        (.absOS 3 1, 0xF, 119, 30, 0),
        (.absSatS 3 1, 0xF, 119, 31, 0),
        (.absS 3 1, 0xF, 119, 31, 0)] = true ∧
    leave (given true 0x8000 0 0 0)
      [(.absWS 3 1, 0x8000, 119, 0, 0),
        (.absCS 3 1, 0x1234, 119, 2, 0),
        (.absOS 3 1, 0x8000, 119, 1, 0),
        (.absSatS 3 1, 0x7FFF, 119, 0, 0),
        (.absS 3 1, 0x1234, 119, 0, 0x11)] = true := by
  decide

/-- Moves and loads: `MOV`, one digit (`LDD`), an index of `N` (`Index`), a zero-extended digit (`LDS`), an exponent (`LDX`) (R120 to R125). -/
theorem test_data_movement :
    leave (given true 0xBEEF 0 0 5)
      [(.nop, 0x1234, 119, 5, 0),
        (.mov 3 1, 0xBEEF, 119, 5, 0),
        (.ldd 3 1, 0xC334, 119, 5, 0),
        (.ldd 3 0, 0x12C3, 119, 5, 0),
        (.ldd 3 2, 0x1234, 119, 5, 0x51),
        (.lds 3, 0xC3, 119, 5, 0),
        (.ldx 2, 0x1234, 703710, 5, 0),
        (.stx 2, 0x1234, 119, 5, 0),
        (.fclr, 0x1234, 119, 5, 0)] = true := by
  decide

/-- What the commands that answer data answer: a digit, an exponent, control registers, the parameters; and
the answers of a command without data and of one that faults (R71, R123, R126, R127). -/
theorem test_answers :
    [answer (.std 1 1) (given true 0xBEEF 0 0 5), answer (.std 1 2) (given true 0xBEEF 0 0 5),
      answer (.stx 2) (given true 0 0 0 5), answer (.rcs 0) (given true 0 0 0 5),
      answer (.rcs 3) (given true 0 0 0 5), answer (.rcs 4) (given true 0 0 0 5),
      answer (.rcs 5) (given true 0 0 0 5), answer (.rcs 6) (given true 0 0 0 5),
      answer .nop (given true 0 0 0 5), answer (.add 3 1 2) (given true 0xFFFF 1 0 0)] =
    [some (.ok, 0xBE, 0), some (.fault, 0, 0), some (.ok, 0, 119), some (.ok, 0, 5), some (.ok, 0, 1),
      some (.ok, 0, 8), some (.ok, 0, 2), some (.ok, 0, 16), some (.ok, 0, 0), some (.fault, 0, 0)] := by
  decide

/-- A register that is both sources and the destination is read before it is written (R27). -/
theorem test_in_place : left (.addW 3 3 3) (given true 0 0 0 0) = some (0x2468, 119, 0, 0) := by decide

/-! ### The transaction -/

/-- The state with one command word to come. -/
def facing (word : Word) (s : State) : State := { s with inputs := [.command ⟨word, 0, 0⟩] }

/-- `FAULT`, `FCMD` and the newest status after one step. -/
def faultAfter (s : State) : Option (Nat × Nat × Option Status) :=
  match step s with
  | .next t => some (t.fault.toNat, t.fcmd.toNat, lastStatus t)
  | .fault _ => none
  | .refused _ => none

/-- A fault is active: `DivZero`, command word 0x33. -/
def faulty : State := { given true 7 2 0 0 with fault := 0x21, fcmd := 0x33 }

/-- While a fault is active: `NOP` and an illegal word are rejected, `RCS` executes, a malformed `FCLR`
raises `Illegal` over the old fault, `FCLR` clears it (R306, R307, R308). -/
theorem test_fault_active :
    [faultAfter (facing 0x00000000 faulty), faultAfter (facing 0x000000FF faulty),
      faultAfter (facing 0x00010007 faulty), faultAfter (facing 0x00000108 faulty),
      faultAfter (facing 0x00000008 faulty)] =
    [some (0x21, 0x33, some .rejected), some (0x21, 0x33, some .rejected), some (0x21, 0x33, some .ok),
      some (0x41, 0x108, some .fault), some (0, 0, some .ok)] := by decide

/-- A step takes the fault of a command (`ADD`, `UMAX + ONE`) and of an illegal word, with its word (R304). -/
theorem test_fault_entry :
    [faultAfter (facing 0x0008B430 (given true 0xFFFF 1 0 0)),
      faultAfter (facing 0x000000FF (given true 0 0 0 0))] =
    [some (0x11, 0x8B430, some .fault), some (0x41, 0xFF, some .fault)] := by decide

/-- The host's word runs as the first command after reset: `LDX X1` answers `OK` and loads data-in 0, and
`RCS PARAM_BITS` of the reference instance answers 256 (log 6). -/
theorem test_first_command_after_reset :
    (match step (State.reset.withFetchWord 32 0x00200005) with
      | .next t => some (t.expo 1, lastStatus t)
      | _ => none) = some (0, some .ok) ∧
    (match step (State.reset.withFetchWord 32 0x00060007) with
      | .next t => t.responses.head?.map (·.doutX)
      | _ => none) = some 256 := by decide

/-- A reset move clears the control registers and samples the strap, and a strap move alone leaves `CFG`
(R330, R331). -/
theorem test_reset_and_strap :
    (match step { faulty with inputs := [.reset], strap := false, flags := 31 } with
      | .next t => some (t.flags, t.fault, t.fcmd, t.cfg)
      | _ => none) = some (0, 0, 0, 0) ∧
    (match step { faulty with inputs := [.strap false] } with
      | .next t => some (t.cfg, t.strap)
      | _ => none) = some (1, false) := by decide

/-! ### The hypotheses of the statements can be met

One theorem for each statement that has hypotheses: concrete states and operands that meet them, a case for
each clause, at the values where the clauses meet. -/

theorem witness_EncodedCommandDecodesBack :
    (Instr.rcs 6).wellFormed = true ∧ (Instr.addO 3 1 2).wellFormed = true := by decide

theorem witness_DecodedWordIsItsEncoding : decode 0x0008B230 = .ok (.addO 3 1 2) := by decide

theorem witness_StepRunsDecodedCommand :
    ((facing 0x0008B430 (given true 1 1 0 0)).inputs = [.command ⟨0x0008B430, 0, 0⟩] ∧
      decode 0x0008B430 = .ok (.add 3 1 2) ∧
      (facing 0x0008B430 (given true 1 1 0 0)).faultOutput = false) ∧
    ((facing 0x00010007 faulty).inputs = [.command ⟨0x00010007, 0, 0⟩] ∧
      decode 0x00010007 = .ok (.rcs 1) ∧ rcsOrFclr 0x00010007) :=
  ⟨⟨rfl, by decide, by decide⟩, rfl, by decide, .inl (by decide)⟩

/-- No command has the opcode byte of these words. -/
theorem no_command_of_opcode (i : Instr) (w : Word) (h : opField w ≠ Laws.opcodeOf i) : encode i ≠ w := by
  rintro rfl
  cases i <;> exact h (by simp [encode, Laws.opcodeOf])

theorem witness_WordWithoutCommandRaisesIllegal :
    (facing 0x000000FF (given true 1 1 0 0)).inputs = [.command ⟨0x000000FF, 0, 0⟩] ∧
    (facing 0x000000FF (given true 1 1 0 0)).faultOutput = false ∧
    ∀ i : Instr, i.wellFormed = true → encode i ≠ 0x000000FF :=
  ⟨rfl, by decide, fun i _ => no_command_of_opcode i _ (by cases i <;> simp only [Laws.opcodeOf] <;> decide)⟩

theorem witness_RejectionWhileFaultActive :
    ((facing 0x00000000 faulty).inputs = [.command ⟨0, 0, 0⟩] ∧
      (facing 0x00000000 faulty).faultOutput = true ∧ ¬rcsOrFclr 0) ∧
    ((facing 0x00000008 faulty).inputs = [.command ⟨8, 0, 0⟩] ∧
      (facing 0x00000008 faulty).faultOutput = true ∧ rcsOrFclr 8 ∧ decode 8 = .ok .fclr) :=
  ⟨⟨rfl, by decide, by unfold rcsOrFclr; decide⟩, rfl, by decide, .inr (by decide), by decide⟩

/-- A malformed `FCLR` word is no command's. -/
theorem no_command_of_malformed_fclr (i : Instr) : encode i ≠ 0x00000108 := by
  by_cases h : i = .fclr
  · subst h; decide
  · refine no_command_of_opcode i _ ?_
    cases i <;> first | exact absurd rfl h | (simp only [Laws.opcodeOf]; decide)

theorem witness_MalformedWhileFaultActive :
    ((facing 0x00000000 faulty).inputs = [.command ⟨0, 0, 0⟩] ∧
      (facing 0x00000000 faulty).faultOutput = true ∧ ¬rcsOrFclr 0) ∧
    ((facing 0x00000108 faulty).inputs = [.command ⟨0x00000108, 0, 0⟩] ∧
      (facing 0x00000108 faulty).faultOutput = true ∧ rcsOrFclr 0x00000108 ∧
      ∀ i : Instr, i.wellFormed = true → encode i ≠ 0x00000108) ∧
    ((facing 0x00060007 faulty).inputs = [.command ⟨0x00060007, 0, 0⟩] ∧
      (facing 0x00060007 faulty).faultOutput = true ∧ rcsOrFclr 0x00060007 ∧
      (Instr.rcs 6).wellFormed = true ∧ encode (.rcs 6) = 0x00060007) ∧
    ((facing 0x00000008 faulty).inputs = [.command ⟨0x00000008, 0, 0⟩] ∧
      (facing 0x00000008 faulty).faultOutput = true ∧ rcsOrFclr 0x00000008) :=
  ⟨⟨rfl, by decide, by unfold rcsOrFclr; decide⟩,
    ⟨rfl, by decide, .inr (by decide), fun i _ => no_command_of_malformed_fclr i⟩,
    ⟨rfl, by decide, .inl (by decide), by decide, by decide⟩, rfl, by decide, .inr (by decide)⟩

theorem witness_FaultEntry :
    ∃ t : State, (facing 0x0008B430 (given true 0xFFFF 1 0 0)).inputs = [.command ⟨0x0008B430, 0, 0⟩] ∧
      step (facing 0x0008B430 (given true 0xFFFF 1 0 0)) = .next t ∧ lastStatus t = some .fault :=
  ⟨_, rfl, rfl, by decide⟩

/-- The moves `ADD`, `FCLR`, `ADD`. -/
def againAfterClear : State :=
  { given true 0xFFFF 1 0 0 with
    inputs := [.command ⟨0x0008B430, 0, 0⟩, .command ⟨8, 0, 0⟩, .command ⟨0x0008B430, 0, 0⟩] }

theorem witness_FaultThenClearRestoresNothing :
    ∃ t : State, againAfterClear.inputs =
        .command ⟨0x0008B430, 0, 0⟩ :: .command ⟨8, 0, 0⟩ :: [.command ⟨0x0008B430, 0, 0⟩] ∧
      againAfterClear.faultOutput = false ∧ step againAfterClear = .next t ∧
      lastStatus t = some .fault :=
  ⟨_, rfl, by decide, rfl, by decide⟩

/-- Requests that answer a digit, a 32-bit word and neither. -/
theorem witness_EveryTransactionIsAnsweredOnce :
    (facing 0x00011003 (given true 0xBEEF 0 0 0)).inputs = [.command ⟨0x00011003, 0, 0⟩] ∧
    answer (.std 1 1) (given true 0xBEEF 0 0 0) = some (.ok, 0xBE, 0) ∧
    answer (.stx 2) (given true 0 0 0 0) = some (.ok, 0, 119) ∧
    answer (.add 3 1 2) (given true 0xFFFF 1 0 0) = some (.fault, 0, 0) := by
  refine ⟨rfl, ?_⟩
  decide

theorem witness_HostMovesBesideCommands :
    (given true 0 0 0 0).inputs = [] ∧
    ({ given true 0 0 0 0 with inputs := [.reset] } : State).inputs = [.reset] ∧
    ({ given true 0 0 0 0 with inputs := [.strap false] } : State).inputs = [.strap false] :=
  ⟨rfl, rfl, rfl⟩

theorem witness_StepKeepsControlRegistersWellFormed :
    faulty.Inv ∧ ∃ t, step (facing 0x00000008 faulty) = .next t :=
  ⟨by decide, _, rfl⟩

theorem witness_OnlyResetChangesCfg :
    (∃ t, step (facing 0x00000008 faulty) = .next t) ∧
    (facing 0x00000008 faulty).inputs.head? ≠ some .reset :=
  ⟨⟨_, rfl⟩, fun h => by cases h⟩

/-- One command of each kind of flag, with the bits at the edges of its field. -/
theorem witness_CommandsWriteOnlyTheirFlags :
    (∃ t : State, (facing 0x0008B430 (given true 0xFFFF 1 0 0)).inputs = [.command ⟨0x0008B430, 0, 0⟩] ∧
      step (facing 0x0008B430 (given true 0xFFFF 1 0 0)) = .next t ∧ lastStatus t ≠ some .ok) ∧
    decode 0x0008B430 = .ok (.add 3 1 2) ∧ 0 ∉ flagBits (.addC 3 1 2) ∧ 1 ∉ flagBits (.addO 3 1 2) ∧
    1 ∉ flagBits (.eq 1 2) ∧ 3 ∉ flagBits (.eq 1 2) ∧ 2 ∉ flagBits (.cmp 1 2) ∧ 5 ∉ flagBits (.cmp 1 2) ∧
    0 ∉ flagBits (.add 3 1 2) :=
  ⟨⟨_, rfl, rfl, by decide⟩, by decide, by decide, by decide, by decide, by decide, by decide, by decide,
    by decide⟩

theorem witness_CheckedFormsNeverFault : Instr.divC 3 1 2 ∈ checkedForms 3 1 2 4 := by decide

theorem witness_LoadAndStoreDigit :
    (1#16).toNat < (given true 0 0 0 0).inst.n ∧ (given true 0 0 0 0).inst.n ≤ (2#16).toNat := by decide

theorem witness_LoadedLiteralReadsBack :
    (given true 0 0 0 0).faultOutput = false ∧ (given true 0 0 0 0).inputs = [] := ⟨by decide, rfl⟩

theorem witness_PseudoInstructionsLoadConstants :
    (given false 0 0 0 0).faultOutput = false ∧ (given false 0 0 0 0).inputs = [] := ⟨by decide, rfl⟩

/-- Operands that differ at the highest digit, at the lowest one only, and not at all. -/
theorem witness_ComparisonFollowsDigitsAndValues :
    (1 < tiny.n ∧ (digitAt (dig 8 2 0x01FF) 1).toNat < (digitAt (dig 8 2 0x0200) 1).toNat) ∧
    (0 < tiny.n ∧ (∀ j, 0 < j → j < tiny.n → digitAt (dig 8 2 0x0201) j = digitAt (dig 8 2 0x0200) j) ∧
      (digitAt (dig 8 2 0x0200) 0).toNat < (digitAt (dig 8 2 0x0201) 0).toNat) ∧
    (∀ k, k < tiny.n → digitAt (dig 8 2 0x0201) k = digitAt (dig 8 2 0x0201) k) := by
  refine ⟨by decide, ⟨by decide, fun j h h' => ?_, by decide⟩, fun _ _ => rfl⟩
  have : j = 1 := by have : j < 2 := h'; omega
  subst this
  decide

theorem witness_BitLengthAndBitTest :
    eX (given true 0 0 15 0) 1 < (given true 0 0 15 0).inst.bits ∧
    (given true 0 0 16 0).inst.bits ≤ eX (given true 0 0 16 0) 1 := by decide

theorem witness_LeftShift :
    ((given true 129 0 16 0).checked = true ∧
      ((given true 129 0 16 0).inst.bits ≤ eX (given true 129 0 16 0) 1)) ∧
    ((given true 129 0 15 0).checked = true ∧
      ¬((given true 129 0 15 0).inst.bits ≤ eX (given true 129 0 15 0) 1)) ∧
    ((given false 129 0 16 0).checked = false ∧
      ((given false 129 0 16 0).inst.bits ≤ eX (given false 129 0 16 0) 1)) := by decide

theorem witness_RightShifts :
    ((given true 32769 0 16 0).checked = true ∧
      ((given true 32769 0 16 0).inst.bits ≤ eX (given true 32769 0 16 0) 1)) ∧
    ((given true 32769 0 15 0).checked = true ∧
      ¬((given true 32769 0 15 0).inst.bits ≤ eX (given true 32769 0 15 0) 1)) ∧
    ((given false 32769 0 16 0).checked = false ∧
      ((given false 32769 0 16 0).inst.bits ≤ eX (given false 32769 0 16 0) 1)) := by decide

theorem witness_ShiftAndRotateLaws :
    eX (given true 5 0 0 0) 1 = 0 ∧
    ((given true 5 0 16 0).inst.bits ≤ eX (given true 5 0 16 0) 1 ∧ (given true 5 0 16 0).checked = true ∧
      Instr.shlC 3 1 1 ∈ [Instr.shlC 3 1 1, .shrC 3 1 1, .shrCS 3 1 1]) ∧
    eX (given true 5 0 15 0) 1 < (given true 5 0 15 0).inst.bits := by decide

theorem witness_UnsignedAddition :
    ((given true 0xFFFF 1 0 0).checked = true ∧
      (mN (given true 0xFFFF 1 0 0) ≤ uA (given true 0xFFFF 1 0 0) 1 + uA (given true 0xFFFF 1 0 0) 2)) ∧
    ((given true 0xFFFF 0 0 0).checked = true ∧
      ¬(mN (given true 0xFFFF 0 0 0) ≤ uA (given true 0xFFFF 0 0 0) 1 + uA (given true 0xFFFF 0 0 0) 2)) ∧
    ((given false 0xFFFF 1 0 0).checked = false ∧
      (mN (given false 0xFFFF 1 0 0) ≤ uA (given false 0xFFFF 1 0 0) 1 + uA (given false 0xFFFF 1 0 0) 2)) := by decide

theorem witness_UnsignedSubtraction :
    ((given true 0 1 0 0).checked = true ∧
      (uA (given true 0 1 0 0) 1 < uA (given true 0 1 0 0) 2)) ∧
    ((given true 1 1 0 0).checked = true ∧
      ¬(uA (given true 1 1 0 0) 1 < uA (given true 1 1 0 0) 2)) ∧
    ((given false 0 1 0 0).checked = false ∧
      (uA (given false 0 1 0 0) 1 < uA (given false 0 1 0 0) 2)) := by decide

theorem witness_SignedAddition :
    ((given true 0x7FFF 1 0 0).checked = true ∧
      outOfRange (given true 0x7FFF 1 0 0) (sA (given true 0x7FFF 1 0 0) 1 + sA (given true 0x7FFF 1 0 0) 2)) ∧
    ((given true 0x7FFF 0 0 0).checked = true ∧
      ¬outOfRange (given true 0x7FFF 0 0 0) (sA (given true 0x7FFF 0 0 0) 1 + sA (given true 0x7FFF 0 0 0) 2)) ∧
    ((given false 0x7FFF 1 0 0).checked = false ∧
      outOfRange (given false 0x7FFF 1 0 0) (sA (given false 0x7FFF 1 0 0) 1 + sA (given false 0x7FFF 1 0 0) 2)) := by decide

theorem witness_SignedSubtraction :
    ((given true 0x8000 1 0 0).checked = true ∧
      outOfRange (given true 0x8000 1 0 0) (sA (given true 0x8000 1 0 0) 1 - sA (given true 0x8000 1 0 0) 2)) ∧
    ((given true 0x8000 0 0 0).checked = true ∧
      ¬outOfRange (given true 0x8000 0 0 0) (sA (given true 0x8000 0 0 0) 1 - sA (given true 0x8000 0 0 0) 2)) ∧
    ((given false 0x8000 1 0 0).checked = false ∧
      outOfRange (given false 0x8000 1 0 0) (sA (given false 0x8000 1 0 0) 1 - sA (given false 0x8000 1 0 0) 2)) := by decide

theorem witness_UnsignedMultiplication :
    ((given true 0x100 0x100 0 0).checked = true ∧
      (mN (given true 0x100 0x100 0 0) ≤ uA (given true 0x100 0x100 0 0) 1 * uA (given true 0x100 0x100 0 0) 2)) ∧
    ((given true 0x101 0xFF 0 0).checked = true ∧
      ¬(mN (given true 0x101 0xFF 0 0) ≤ uA (given true 0x101 0xFF 0 0) 1 * uA (given true 0x101 0xFF 0 0) 2)) ∧
    ((given false 0x100 0x100 0 0).checked = false ∧
      (mN (given false 0x100 0x100 0 0) ≤ uA (given false 0x100 0x100 0 0) 1 * uA (given false 0x100 0x100 0 0) 2)) := by decide

theorem witness_SignedMultiplication :
    ((given true 0x8000 0xFFFF 0 0).checked = true ∧
      outOfRange (given true 0x8000 0xFFFF 0 0) (sA (given true 0x8000 0xFFFF 0 0) 1 * sA (given true 0x8000 0xFFFF 0 0) 2)) ∧
    ((given true 0x8000 1 0 0).checked = true ∧
      ¬outOfRange (given true 0x8000 1 0 0) (sA (given true 0x8000 1 0 0) 1 * sA (given true 0x8000 1 0 0) 2)) ∧
    ((given false 0x8000 0xFFFF 0 0).checked = false ∧
      outOfRange (given false 0x8000 0xFFFF 0 0) (sA (given false 0x8000 0xFFFF 0 0) 1 * sA (given false 0x8000 0xFFFF 0 0) 2)) := by decide

theorem witness_DividerIsExact : (dig 8 2 1).val ≠ 0 := by decide

theorem witness_UnsignedDivision : uA (given true 0x2EE1 1 0 0) 2 ≠ 0 := by decide

theorem witness_SignedTruncatedDivision :
    (sA (given true 0x8000 0xFFFF 0 0) 2 ≠ 0 ∧ (given true 0x8000 0xFFFF 0 0).checked = true ∧
      (sA (given true 0x8000 0xFFFF 0 0) 1 = -(hN (given true 0x8000 0xFFFF 0 0) : Int) ∧ sA (given true 0x8000 0xFFFF 0 0) 2 = -1)) ∧
    (sA (given true 0x8001 0xFFFF 0 0) 2 ≠ 0 ∧ (given true 0x8001 0xFFFF 0 0).checked = true ∧
      ¬(sA (given true 0x8001 0xFFFF 0 0) 1 = -(hN (given true 0x8001 0xFFFF 0 0) : Int) ∧ sA (given true 0x8001 0xFFFF 0 0) 2 = -1)) ∧
    (sA (given false 0x8000 0xFFFF 0 0) 2 ≠ 0 ∧ (given false 0x8000 0xFFFF 0 0).checked = false ∧
      (sA (given false 0x8000 0xFFFF 0 0) 1 = -(hN (given false 0x8000 0xFFFF 0 0) : Int) ∧ sA (given false 0x8000 0xFFFF 0 0) 2 = -1)) := by decide

theorem witness_SignedEuclideanDivision :
    (sA (given true 0x8000 0xFFFF 0 0) 2 ≠ 0 ∧ (given true 0x8000 0xFFFF 0 0).checked = true ∧
      (sA (given true 0x8000 0xFFFF 0 0) 1 = -(hN (given true 0x8000 0xFFFF 0 0) : Int) ∧ sA (given true 0x8000 0xFFFF 0 0) 2 = -1)) ∧
    (sA (given true 0x8000 1 0 0) 2 ≠ 0 ∧ (given true 0x8000 1 0 0).checked = true ∧
      ¬(sA (given true 0x8000 1 0 0) 1 = -(hN (given true 0x8000 1 0 0) : Int) ∧ sA (given true 0x8000 1 0 0) 2 = -1)) ∧
    (sA (given false 0x8000 0xFFFF 0 0) 2 ≠ 0 ∧ (given false 0x8000 0xFFFF 0 0).checked = false ∧
      (sA (given false 0x8000 0xFFFF 0 0) 1 = -(hN (given false 0x8000 0xFFFF 0 0) : Int) ∧ sA (given false 0x8000 0xFFFF 0 0) 2 = -1)) := by decide

theorem witness_DivisionByZero :
    (∀ k, k < (given false 7 0 0 0).inst.n → digitAt ((given false 7 0 0 0).reg 2) k = 0) ∧
    Instr.divC 3 1 2 ∈ checkedDivisions 3 1 2 ∧ Instr.divW 3 1 2 ∈ uncheckedDivisions 3 1 2 := by
  refine ⟨fun k h => ?_, by decide⟩
  obtain rfl | rfl : k = 0 ∨ k = 1 := by have : k < 2 := h; omega
  · decide
  · decide

theorem witness_NegatorIsExact : dig 8 2 0x8001 ≠ sminV _ _ := by decide

theorem witness_NegateAndAbsolute :
    ((given true 0x8000 0 0 0).checked = true ∧
      (sA (given true 0x8000 0 0 0) 1 = -(hN (given true 0x8000 0 0 0) : Int))) ∧
    ((given true 0x8001 0 0 0).checked = true ∧
      ¬(sA (given true 0x8001 0 0 0) 1 = -(hN (given true 0x8001 0 0 0) : Int))) ∧
    ((given false 0x8000 0 0 0).checked = false ∧
      (sA (given false 0x8000 0 0 0) 1 = -(hN (given false 0x8000 0 0 0) : Int))) := by decide

theorem witness_TwosComplementLaws : (3 : Reg) ≠ 1 ∧ Instr.absOS 3 1 ∈ [Instr.negOS 3 1, .absOS 3 1] := by
  decide

theorem witness_BinaryLogarithm : uA (given true 1 0 0 0) 1 ≠ 0 ∧ uA (given true 0 0 0 0) 1 = 0 := by decide

/-- `0x8001` has the next power of two `2^16`, `0x8000` has `2^15`. -/
theorem witness_NextPowerOfTwo :
    ((given true 0x8001 0 0 0).checked = true ∧ mN (given true 0x8001 0 0 0) ≤ 2 ^ 16) ∧
    ((given true 0x8000 0 0 0).checked = true ∧ ¬mN (given true 0x8000 0 0 0) ≤ 2 ^ 15) ∧
    (given false 0x8001 0 0 0).checked = false := by decide

end Sys2Proof.Tests
end

/-! Family `10_state.md`: the control registers. One predicate, `ControlEffect`, says what a command may do
to them; it is proved once for each shared operation, then for every command, every transaction, and the
statements about steps are read off it. -/

namespace Sys2Proof.Machine

open Sys2Proof.Claims

/-! ### What a command may do to the control registers -/

/-- One field of `FLAGS` is written, and `bits` are the bits of that field (R23, R24). -/
inductive FieldWritten (f : Word) : Word → List Nat → Prop where
  | ovf (b : Bool) : FieldWritten f (putOvf b f) [0]
  | absent (b : Bool) : FieldWritten f (putNone b f) [1]
  | test (b : Bool) : FieldWritten f (putT b f) [2]
  | order (o : Ordering) : FieldWritten f (putOrd (ordCode o) f) [3, 4]

/-- From `s` to `t` the parameters and `CFG` are kept; `FLAGS` is kept, or the field with the bits `bits` is
written and the answer is `OK` (R24); `FAULT` and `FCMD` are kept, cleared (R308), or record a cause
(R304). -/
structure ControlEffect (s t : State) (bits : List Nat) : Prop where
  inst : t.inst = s.inst
  cfg : t.cfg = s.cfg
  flags : t.flags = s.flags ∨ (lastStatus t = some .ok ∧ FieldWritten s.flags t.flags bits)
  fault : (t.fault = s.fault ∧ t.fcmd = s.fcmd) ∨ (t.fault = 0 ∧ t.fcmd = 0) ∨ ∃ c, t.fault = faultWord c

/-- A bit outside the written field keeps its value. -/
theorem FieldWritten.getLsbD_eq {f g : Word} {bits : List Nat} (h : FieldWritten f g bits) {k : Nat}
    (hk : k ∉ bits) : g.getLsbD k = f.getLsbD k := by
  cases h with
  | ovf b => rw [putOvf, getLsbD_putBit, if_neg (by simp_all)]
  | absent b => rw [putNone, getLsbD_putBit, if_neg (by simp_all)]
  | test b => rw [putT, getLsbD_putBit, if_neg (by simp_all)]
  | order o => rw [getLsbD_putOrd, if_neg (by simp_all), if_neg (by simp_all)]

/-- A field write keeps `FLAGS` well formed. -/
theorem FieldWritten.flagsWf {f g : Word} {bits : List Nat} (h : FieldWritten f g bits) (hf : FlagsWf f) :
    FlagsWf g := by
  cases h with
  | ovf b => exact hf.putOvf b
  | absent b => exact hf.putNone b
  | test b => exact hf.putT b
  | order o => exact hf.putOrd o

/-! ### What follows from the effect -/

section
variable {s t : State} {bits : List Nat}

/-- A bit of `FLAGS` that the rule does not name keeps its value. -/
theorem ControlEffect.getLsbD_flags (h : ControlEffect s t bits) {k : Nat} (hk : k ∉ bits) :
    t.flags.getLsbD k = s.flags.getLsbD k := by
  obtain hkept | ⟨-, hwritten⟩ := h.flags
  · rw [hkept]
  · exact hwritten.getLsbD_eq hk

/-- A command that is not answered `OK` writes no flag. -/
theorem ControlEffect.flags_of_not_ok (h : ControlEffect s t bits) (hok : lastStatus t ≠ some .ok) :
    t.flags = s.flags := by
  obtain hkept | ⟨hstatus, -⟩ := h.flags
  · exact hkept
  · exact absurd hstatus hok

/-- The word of every cause is a well-formed `FAULT`, whatever `FCMD` holds. -/
theorem faultWf_faultWord (c : Cause) (fcmd : Word) : FaultWf (faultWord c) fcmd :=
  .inr (List.mem_map_of_mem (by cases c <;> decide))

/-- The effect keeps the control registers well formed. -/
theorem ControlEffect.inv (h : ControlEffect s t bits) (hs : s.Inv) : t.Inv := by
  obtain ⟨hflags, hfault, hcfg⟩ := hs
  refine ⟨?_, ?_, h.cfg ▸ hcfg⟩
  · obtain hkept | ⟨-, hwritten⟩ := h.flags
    · exact hkept ▸ hflags
    · exact hwritten.flagsWf hflags
  · obtain ⟨hf, hc⟩ | hcleared | ⟨c, hc⟩ := h.fault
    · exact hf ▸ hc ▸ hfault
    · exact .inl hcleared
    · exact hc ▸ faultWf_faultWord c t.fcmd

end

/-! ### The effect of each shared operation -/

section
variable {t : State} {bits : List Nat} (s : State)

/-- A value register written first is no control register. -/
theorem ControlEffect.of_setReg {s : State} {r : Reg} {a : Value s.inst.w s.inst.n}
    (h : ControlEffect (s.setReg r a) t bits) : ControlEffect s t bits :=
  ⟨h.inst, h.cfg, h.flags, h.fault⟩

/-- An exponent register written first is no control register. -/
theorem ControlEffect.of_setExpo {s : State} {r : Reg} {e : Word}
    (h : ControlEffect (s.setExpo r e) t bits) : ControlEffect s t bits :=
  ⟨h.inst, h.cfg, h.flags, h.fault⟩

/-- `FAULT` and `FCMD` cleared first, and then kept. -/
theorem controlEffect_clearFault_done : ControlEffect s s.clearFault.done bits :=
  ⟨rfl, rfl, .inl rfl, .inr (.inl ⟨rfl, rfl⟩)⟩

theorem controlEffect_respond (r : Response s.inst.w) : ControlEffect s (s.respond r) bits :=
  ⟨rfl, rfl, .inl rfl, .inl ⟨rfl, rfl⟩⟩

theorem controlEffect_done : ControlEffect s s.done bits := controlEffect_respond s _

theorem controlEffect_raise (c : Cause) : ControlEffect s (s.raise c) bits :=
  ⟨rfl, rfl, .inl rfl, .inr (.inr ⟨c, rfl⟩)⟩

theorem controlEffect_setFlags_done {f : Word} (h : FieldWritten s.flags f bits) :
    ControlEffect s (s.setFlags f).done bits :=
  ⟨rfl, rfl, .inr ⟨rfl, h⟩, .inl ⟨rfl, rfl⟩⟩

theorem controlEffect_setReg_done (r : Reg) (a : Value s.inst.w s.inst.n) :
    ControlEffect s (s.setReg r a).done bits :=
  (controlEffect_done _).of_setReg

theorem controlEffect_deliverCount (xr : Reg) (count : Nat) : ControlEffect s (s.deliverCount xr count) bits :=
  (controlEffect_done _).of_setExpo

theorem controlEffect_deliverTest (b : Bool) : ControlEffect s (s.deliverTest b) [2] :=
  controlEffect_setFlags_done s (.test b)

theorem controlEffect_deliverOrder (o : Ordering) : ControlEffect s (s.deliverOrder o) [3, 4] :=
  controlEffect_setFlags_done s (.order o)

/-- The bits of `FLAGS` an overflow variant writes (R101 to R105). -/
def variantBits (var : Variant) : List Nat :=
  match var with
  | .checked => [1]
  | .overflowing => [0]
  | .wrapping | .saturating | .panicking => []

theorem controlEffect_deliver (var : Variant) (rd : Reg) (x : Triple s.inst.w s.inst.n) :
    ControlEffect s (s.deliver var rd x) (variantBits var) := by
  obtain ⟨-, h⟩ | ⟨rfl, -, h⟩ | ⟨rfl, -, h⟩ | ⟨rfl, h⟩ | ⟨-, -, h⟩ | ⟨-, -, h⟩ | ⟨-, -, -, h⟩ | ⟨-, -, h⟩ :=
    s.deliver_cases var rd x <;> rw [h]
  · exact controlEffect_setReg_done s _ _
  · exact controlEffect_setFlags_done s (.absent true)
  · exact (controlEffect_setFlags_done _ (.absent false)).of_setReg
  · exact (controlEffect_setFlags_done _ (.ovf _)).of_setReg
  · exact controlEffect_setReg_done s _ _
  · exact controlEffect_setReg_done s _ _
  · exact controlEffect_raise s _
  · exact controlEffect_setReg_done s _ _

theorem controlEffect_divideByZero (var : Variant) :
    ControlEffect s (s.divideByZero var) (variantBits var) := by
  obtain ⟨rfl, h⟩ | ⟨-, h⟩ := s.divideByZero_cases var <;> rw [h]
  · exact controlEffect_setFlags_done s (.absent true)
  · exact controlEffect_raise s _

theorem controlEffect_deliverDivision (var : Variant) (rd : Reg) (d : Value s.inst.w s.inst.n)
    (x : Triple s.inst.w s.inst.n) :
    ControlEffect s (s.deliverDivision var rd d x) (variantBits var) := by
  obtain ⟨-, h⟩ | ⟨-, h⟩ := s.deliverDivision_cases var rd d x <;> rw [h]
  · exact controlEffect_divideByZero s var
  · exact controlEffect_deliver s var rd x

end

/-! ### The effect of every command, and of a transaction -/

/-- A command ends in a next state, and does to the control registers no more than its rule names. -/
theorem exec_controlEffect (i : Instr) (s : State) :
    ∃ t, exec i s = .next t ∧ ControlEffect s t (flagBits i) := by
  cases i with
  | nop => exact ⟨_, rfl, controlEffect_done s⟩
  | ldd r idx =>
    refine ⟨_, rfl, ?_⟩
    split
    · exact controlEffect_setReg_done s _ _
    · exact controlEffect_raise s _
  | std r idx =>
    refine ⟨_, rfl, ?_⟩
    split
    · exact controlEffect_respond s _
    · exact controlEffect_raise s _
  | ldx xr => exact ⟨_, rfl, (controlEffect_done _).of_setExpo⟩
  | stx xr => exact ⟨_, rfl, controlEffect_respond s _⟩
  | rcs idx =>
    refine ⟨_, rfl, ?_⟩
    split
    · exact controlEffect_respond s _
    · exact controlEffect_raise s _
  | fclr => exact ⟨_, rfl, controlEffect_clearFault_done s⟩
  | bit rs1 xr =>
    refine ⟨_, rfl, ?_⟩
    split
    · exact controlEffect_raise s _
    · exact controlEffect_deliverTest s _
  | log2C xr rs1 =>
    refine ⟨_, rfl, ?_⟩
    split
    · exact controlEffect_setFlags_done s (.absent true)
    · exact (controlEffect_setFlags_done _ (.absent false)).of_setExpo
  | log2 xr rs1 =>
    refine ⟨_, rfl, ?_⟩
    split
    · exact controlEffect_raise s _
    · exact (controlEffect_done _).of_setExpo
  | mov | lds | rotl | rotr | swapb | revb | not | gcd => exact ⟨_, rfl, controlEffect_setReg_done s _ _⟩
  | blen | clz | ctz | clo | cto | cnt1 | cnt0 => exact ⟨_, rfl, controlEffect_deliverCount s _ _⟩
  | cmp | cmpS => exact ⟨_, rfl, controlEffect_deliverOrder s _⟩
  | eq | isz | isone | isp2 | isneg => exact ⟨_, rfl, controlEffect_deliverTest s _⟩
  | divW | divC | divO | divSat | div | divWS | divCS | divOS | divSatS | divS
  | remW | remC | remO | rem | remWS | remCS | remOS | remS
  | diveW | diveC | diveO | diveSat | dive | diveWS | diveCS | diveOS | diveSatS | diveS
  | remeW | remeC | remeO | reme | remeWS | remeCS | remeOS | remeS =>
    exact ⟨_, rfl, controlEffect_deliverDivision s _ _ _ _⟩
  | shlW | shlC | shlO | shl | shrW | shrC | shrO | shr | shrWS | shrCS | shrOS | shrS
  | addW | addC | addO | addSat | add | addWS | addCS | addOS | addSatS | addS
  | subW | subC | subO | subSat | sub | subWS | subCS | subOS | subSatS | subS
  | mulW | mulC | mulO | mulSat | mul | mulWS | mulCS | mulOS | mulSatS | mulS
  | npotW | npotC | npotO | npot
  | negW | negWS | negCS | negOS | negSatS | negS | absWS | absCS | absOS | absSatS | absS =>
    exact ⟨_, rfl, controlEffect_deliver s _ _ _⟩

/-- The bits of `FLAGS` the command of a word may write; none for a word that does not decode. -/
def wordFlagBits (cmd : Word) : List Nat :=
  match decode cmd with
  | .ok i => flagBits i
  | .error _ => []

theorem wordFlagBits_of_decode {cmd : Word} {i : Instr} (h : decode cmd = .ok i) :
    wordFlagBits cmd = flagBits i := by
  rw [wordFlagBits, h]

/-- A transaction ends in a next state; a rejected or ill-formed word writes no flag. -/
theorem transact_controlEffect (s : State) :
    ∃ t, transact s = .next t ∧ ControlEffect s t (wordFlagBits s.request.cmd) := by
  obtain ⟨-, -, h⟩ | ⟨-, ⟨e, -, h⟩ | ⟨i, hi, h⟩⟩ := transact_cases s
  · exact ⟨_, h, controlEffect_respond s _⟩
  · exact ⟨_, h, controlEffect_raise s _⟩
  · rw [h, wordFlagBits_of_decode hi]
    exact exec_controlEffect i s

/-! ### The effect of a step -/

/-- The step that takes a command off the host's list. -/
theorem step_of_command {s : State} {req : Request s.inst.w} {rest : List (HostMove s.inst.w)}
    (h : s.inputs = .command req :: rest) :
    step s = transact (State.accept { s with inputs := rest } req) := by
  obtain ⟨h', -⟩ | ⟨req', rest', h', hstep⟩ | ⟨rest', h', -⟩ | ⟨level, rest', h', -⟩ := step_cases s
  · simp [h] at h'
  · rw [h] at h'
    cases h'
    exact hstep
  · simp [h] at h'
  · simp [h] at h'

/-- A step that takes a command does to the control registers no more than the rule of its word names. -/
theorem step_controlEffect_of_command {s t : State} {req : Request s.inst.w}
    {rest : List (HostMove s.inst.w)} (h : s.inputs = .command req :: rest) (hstep : step s = .next t) :
    ControlEffect s t (wordFlagBits req.cmd) := by
  obtain ⟨t', ht', heffect⟩ := transact_controlEffect (State.accept { s with inputs := rest } req)
  rw [step_of_command h, ht'] at hstep
  cases hstep
  exact ⟨heffect.inst, heffect.cfg, heffect.flags, heffect.fault⟩

/-- A reset leaves the control registers well formed, whatever they held (R330, R331). -/
theorem State.resetUnit_inv (s : State) : s.resetUnit.Inv := by
  refine ⟨?_, .inl ⟨rfl, rfl⟩, ?_⟩
  · rw [State.resetUnit_flags]; decide
  · rw [State.resetUnit_cfg]; cases s.strap <;> decide

/-! ### The control registers by number -/

/-- `RCS` of a control register that exists answers its word (R127). -/
theorem exec_rcs_of_csr {s : State} {idx : DigitIdx} {c : Word} (h : s.csr idx = some c) :
    exec (.rcs idx) s = .next (gave s 0 c) := by
  show execRcs idx s = _
  rw [execRcs, h]
  rfl

/-- What each control register holds after the reset that begins a run (R29, R40). -/
theorem csr_powerOn (inst : Instance) (checked : Bool) (v : Vector (Value inst.w inst.n) 8)
    (x : Vector Word 8) (inputs : List (HostMove inst.w)) {k : Nat} (hk : k < 7) :
    (State.powerOn inst checked v x inputs).csr (BitVec.ofNat 16 k) =
      some (BitVec.ofNat 32 ([0, 0, 0, checked.toNat, inst.w, inst.n, inst.n * inst.w].getD k 0)) := by
  have hcfg : cfgWord checked = BitVec.ofNat 32 checked.toNat := by cases checked <;> rfl
  obtain rfl | rfl | rfl | rfl | rfl | rfl | rfl :
      k = 0 ∨ k = 1 ∨ k = 2 ∨ k = 3 ∨ k = 4 ∨ k = 5 ∨ k = 6 := by omega
  case inr.inr.inr.inl => exact congrArg some hcfg
  all_goals rfl

/-! ### The obligations -/

/-- Settles O16: idle and strap moves change no control register, a reset gives them well-formed contents,
and a command has only the effect of its rule. -/
theorem stepKeepsControlRegistersWellFormed : Obligations.StepKeepsControlRegistersWellFormed := by
  intro s t hs hstep
  obtain ⟨-, h⟩ | ⟨req, rest, hin, -⟩ | ⟨rest, -, h⟩ | ⟨level, rest, -, h⟩ := step_cases s
  · cases h.symm.trans hstep
    exact hs
  · exact (step_controlEffect_of_command hin hstep).inv hs
  · cases h.symm.trans hstep
    exact State.resetUnit_inv _
  · cases h.symm.trans hstep
    exact hs

/-- Settles O17, by the same cases of a step. -/
theorem onlyResetChangesCfg : Obligations.OnlyResetChangesCfg := by
  intro s t hstep
  obtain ⟨-, h⟩ | ⟨req, rest, hin, -⟩ | ⟨rest, hin, h⟩ | ⟨level, rest, -, h⟩ := step_cases s
  · cases h.symm.trans hstep
    exact ⟨rfl, fun _ => rfl⟩
  · have heffect := step_controlEffect_of_command hin hstep
    exact ⟨heffect.inst, fun _ => heffect.cfg⟩
  · cases h.symm.trans hstep
    exact ⟨rfl, fun hne => absurd (by rw [hin]; rfl) hne⟩
  · cases h.symm.trans hstep
    exact ⟨rfl, fun _ => rfl⟩

/-- Settles O19, from the effect of the transaction on `FLAGS`. -/
theorem commandsWriteOnlyTheirFlags : Obligations.CommandsWriteOnlyTheirFlags := by
  intro s t req rest hin hstep
  have heffect := step_controlEffect_of_command hin hstep
  refine ⟨heffect.flags_of_not_ok, fun i hi k hk => heffect.getLsbD_flags ?_⟩
  rwa [wordFlagBits_of_decode hi]

/-- Settles O14, register by register. -/
theorem powerOnControlRegisters : Obligations.PowerOnControlRegisters := by
  intro inst checked v x inputs
  exact ⟨faultActive_zero, fun k hk => exec_rcs_of_csr (csr_powerOn inst checked v x inputs hk)⟩

/-- Settles O18, from the bits of a word after one bit, or `ORD`, is written. -/
theorem flagWritesTouchOneField : Obligations.FlagWritesTouchOneField := by
  intro f b o k
  have hbit (i : Nat) (hi : i < 32) : (putBit i b f).getLsbD k = if k = i then b else f.getLsbD k := by
    rw [getLsbD_putBit]
    exact if_congr (and_iff_left_of_imp (by omega)) rfl rfl
  have hlow : (ordCode o).getLsbD 0 = (o == .eq) := by cases o <;> rfl
  have hhigh : (ordCode o).getLsbD 1 = (o == .gt) := by cases o <;> rfl
  refine ⟨hbit 0 (by decide), hbit 1 (by decide), hbit 2 (by decide), ?_⟩
  rw [getLsbD_putOrd, hlow, hhigh]

end Sys2Proof.Machine

/-! Family `20_memory.md`: the digits of a value as storage (R51). The host's `LDD` and `STD` words run from
any state with no fault active, over any list of indices below `N`; a literal that is loaded and
read back is the list `0, …, N-1` for both. -/

namespace Sys2Proof.Machine

open Sys2Proof.Claims

/-! ### Writing a list of digits -/

/-- The digits `f i` written at the indices of a list, one after another. -/
def putDigits {w n : Nat} (f : Nat → BitVec w) (is : List Nat) (a : Value w n) : Value w n :=
  is.foldl (fun b i => putDigit b i (f i)) a

@[simp] theorem putDigits_nil {w n : Nat} (f : Nat → BitVec w) (a : Value w n) : putDigits f [] a = a := rfl

theorem putDigits_cons {w n : Nat} (f : Nat → BitVec w) (i : Nat) (is : List Nat) (a : Value w n) :
    putDigits f (i :: is) a = putDigits f is (putDigit a i (f i)) := rfl

/-- An index of the list holds its digit, and every other digit is unchanged. -/
theorem digitAt_putDigits {w n : Nat} (f : Nat → BitVec w) (is : List Nat) (a : Value w n) {k : Nat}
    (hk : k < n) : digitAt (putDigits f is a) k = if k ∈ is then f k else digitAt a k := by
  induction is generalizing a with
  | nil => simp
  | cons i is ih =>
    rw [putDigits_cons, ih, digitAt_putDigit]
    by_cases hi : k = i
    · subst hi
      simp [hk]
    · simp [hi]

/-- Writing every digit of a value over another gives that value. -/
theorem putDigits_range {w n : Nat} (a b : Value w n) : putDigits (digitAt b) (List.range n) a = b :=
  value_ext fun k hk => by rw [digitAt_putDigits _ _ _ hk, if_pos (List.mem_range.2 hk)]

/-! ### The words of `LDD` and `STD` -/

theorem decode_encode_ldd (r : Reg) (idx : DigitIdx) : decode (encode (.ldd r idx)) = .ok (.ldd r idx) := by
  simp [decode, encode, formD, regField, Instr.wellFormed]

theorem decode_encode_std (r : Reg) (idx : DigitIdx) : decode (encode (.std r idx)) = .ok (.std r idx) := by
  simp [decode, encode, formD, regField, Instr.wellFormed]

/-- A digit index below `N` is its own 16-bit `idx` field (R10, R74). -/
theorem toNat_digitIdx {inst : Instance} {i : Nat} (hi : i < inst.n) : (BitVec.ofNat 16 i).toNat = i := by
  have := inst.index_ok
  rw [BitVec.toNat_ofNat, Nat.mod_eq_of_lt (by omega)]

/-- `LDD` of a digit that exists (R122). -/
theorem exec_ldd_of_lt (s : State) (r : Reg) {i : Nat} (hi : i < s.inst.n) :
    exec (.ldd r (BitVec.ofNat 16 i)) s = .next (s.setDigit r i s.dinDigit).done := by
  show execLdd r _ s = _
  simp [execLdd, State.indexInRange, toNat_digitIdx hi, hi]

/-- `STD` of a digit that exists (R123). -/
theorem exec_std_of_lt (s : State) (r : Reg) {i : Nat} (hi : i < s.inst.n) :
    exec (.std r (BitVec.ofNat 16 i)) s = .next (s.respond ⟨.ok, s.digit r i, 0⟩) := by
  show execStd r _ s = _
  simp [execStd, State.indexInRange, toNat_digitIdx hi, hi]

/-! ### Running the requests the host has issued -/

/-- A run goes on from the state its first step gives. -/
theorem run_succ_of_step {M : Host.Core} {s t : M.State} (k : Nat) (h : M.step s = .next t) :
    M.run (k + 1) s = M.run k t := by
  rw [Host.Core.run, h]

/-- A run goes on from the state its first `j` steps give. -/
theorem run_add_of_run {M : Host.Core} {s t : M.State} (j k : Nat) (h : M.run j s = .next t) :
    M.run (j + k) s = M.run k t := by
  induction j generalizing s with
  | zero =>
    cases h
    rw [Nat.zero_add]
  | succ j ih =>
    rw [Nat.succ_add]
    cases hstep : M.step s with
    | next s' => exact (run_succ_of_step _ hstep).trans (ih ((run_succ_of_step _ hstep).symm.trans h))
    | fault r => simp [Host.Core.run, hstep] at h
    | refused r => simp [Host.Core.run, hstep] at h

theorem State.issue_append (s : State) (ps qs : List (Request s.inst.w)) :
    s.issue (ps ++ qs) = (s.issue qs).issue ps := by
  rw [State.issue, List.map_append, List.append_assoc]
  rfl

/-- With no fault active, a transaction executes the command its word decodes to (R312). -/
theorem transact_of_decode {s : State} {i : Instr} (hs : s.faultOutput = false)
    (hi : decode s.request.cmd = .ok i) : transact s = exec i s := by
  simp [transact, hs, hi]

/-- With no fault active, the first request issued runs the command its word decodes to. -/
theorem step_issue_cons {s : State} {q : Request s.inst.w} {i : Instr} (qs : List (Request s.inst.w))
    (hs : s.faultOutput = false) (hq : decode q.cmd = .ok i) :
    step (s.issue (q :: qs)) = exec i ((s.issue qs).accept q) :=
  (step_of_command rfl).trans (transact_of_decode hs hq)

/-! ### Loading and storing the digits at a list of indices -/

/-- The `LDD` words the host issues for the digits `f i` at the indices of a list. -/
def loadDigits {w : Nat} (r : Reg) (f : Nat → BitVec w) (is : List Nat) : List (Request w) :=
  is.map fun i => requestOf (.ldd r (BitVec.ofNat 16 i)) (f i)

/-- The `STD` words the host issues for the indices of a list. -/
def storeDigits (w : Nat) (r : Reg) (is : List Nat) : List (Request w) :=
  is.map fun i => requestOf (.std r (BitVec.ofNat 16 i)) 0

/-- The responses to `STD` at the indices of a list, the newest first. -/
def digitResponses {w n : Nat} (a : Value w n) (is : List Nat) : List (Response w) :=
  is.reverse.map fun i => ⟨.ok, digitAt a i, 0⟩

theorem digitResponses_cons {w n : Nat} (a : Value w n) (i : Nat) (is : List Nat) :
    digitResponses a (i :: is) = digitResponses a is ++ [⟨.ok, digitAt a i, 0⟩] := by
  rw [digitResponses, List.reverse_cons, List.map_append]
  rfl

/-- The state after the `LDD` word of digit `i`: the digit is written, and the answer is `OK`. -/
def State.loadedDigit (s : State) (r : Reg) (i : Nat) (d : BitVec s.inst.w) : State :=
  ((s.accept (requestOf (.ldd r (BitVec.ofNat 16 i)) d)).setDigit r i d).done

/-- The state after the `STD` word of digit `i`: the answer holds the digit. -/
def State.storedDigit (s : State) (r : Reg) (i : Nat) : State :=
  (s.accept (requestOf (.std r (BitVec.ofNat 16 i)) 0)).respond ⟨.ok, s.digit r i, 0⟩

theorem State.reg_loadedDigit (s : State) (r : Reg) (i : Nat) (d : BitVec s.inst.w) :
    (s.loadedDigit r i d).reg r = putDigit (s.reg r) i d :=
  State.reg_setReg_self _ r _

theorem step_loadDigits_cons {s : State} {i : Nat} (r : Reg) (is : List Nat) (f : Nat → BitVec s.inst.w)
    (hs : s.faultOutput = false) (hi : i < s.inst.n) :
    step (s.issue (loadDigits r f (i :: is))) =
      .next ((s.loadedDigit r i (f i)).issue (loadDigits r f is)) :=
  (step_issue_cons _ hs (decode_encode_ldd r _)).trans (exec_ldd_of_lt _ r hi)

theorem step_storeDigits_cons {s : State} {i : Nat} (r : Reg) (is : List Nat)
    (hs : s.faultOutput = false) (hi : i < s.inst.n) :
    step (s.issue (storeDigits s.inst.w r (i :: is))) =
      .next ((s.storedDigit r i).issue (storeDigits s.inst.w r is)) :=
  (step_issue_cons _ hs (decode_encode_std r _)).trans (exec_std_of_lt _ r hi)

/-- The state after commands that wrote value registers and answered: only `V`, the last request and the
responses differ. -/
def State.afterCommands (s : State) (v : Vector (Value s.inst.w s.inst.n) 8) (req : Request s.inst.w)
    (responses : List (Response s.inst.w)) : State :=
  { s with v := v, request := req, responses := responses }

/-- Commands that write the whole of a register after one of its digits leave what they leave without the
digit, and one more `OK`. -/
theorem State.afterCommands_loadedDigit (s : State) (r : Reg) (i k : Nat) (d : BitVec s.inst.w)
    (a : Value s.inst.w s.inst.n) (req : Request s.inst.w) :
    (s.loadedDigit r i d).afterCommands ((s.loadedDigit r i d).v.set r a) req
        (List.replicate k (okResponse _) ++ (s.loadedDigit r i d).responses) =
      s.afterCommands (s.v.set r a) req (List.replicate (k + 1) (okResponse _) ++ s.responses) := by
  have hv : (s.v.set r (putDigit (s.reg r) i d)).set r a = s.v.set r a := Vector.set_set _ r.isLt
  have hresponses : List.replicate k (okResponse s.inst.w) ++ okResponse _ :: s.responses =
      List.replicate (k + 1) (okResponse _) ++ s.responses := by
    rw [List.append_cons, List.replicate_succ']
  exact congrArg₂ (fun v out => s.afterCommands v req out) hv hresponses

/-- Stores that follow one of digit `i` answer on top of it. -/
theorem State.afterCommands_storedDigit (s : State) (r : Reg) (i : Nat) (is : List Nat)
    (req : Request s.inst.w) :
    (s.storedDigit r i).afterCommands (s.storedDigit r i).v req
        (digitResponses ((s.storedDigit r i).reg r) is ++ (s.storedDigit r i).responses) =
      s.afterCommands s.v req (digitResponses (s.reg r) (i :: is) ++ s.responses) := by
  rw [digitResponses_cons, List.append_assoc]
  rfl

/-- Loading digits writes them to the register and changes no other register. -/
theorem run_loadDigits (r : Reg) (is : List Nat) (s : State) (f : Nat → BitVec s.inst.w)
    (hs : s.faultOutput = false) (his : ∀ i ∈ is, i < s.inst.n) :
    ∃ req : Request s.inst.w, Sys2Proof.core.run is.length (s.issue (loadDigits r f is)) =
      .next (s.afterCommands (s.v.set r (putDigits f is (s.reg r))) req
        (List.replicate is.length (okResponse _) ++ s.responses)) := by
  induction is generalizing s with
  | nil =>
    have hv : s.v.set r (s.reg r) = s.v := Vector.set_getElem_self r.isLt
    refine ⟨s.request, ?_⟩
    rw [putDigits_nil, hv]
    rfl
  | cons i is ih =>
    obtain ⟨hi, his⟩ := List.forall_mem_cons.1 his
    obtain ⟨req, hrun⟩ := ih (s.loadedDigit r i (f i)) f hs his
    rw [State.reg_loadedDigit] at hrun
    exact ⟨req, (run_succ_of_step _ (step_loadDigits_cons r is f hs hi)).trans
      (hrun.trans (congrArg _ (s.afterCommands_loadedDigit r i is.length (f i) _ req)))⟩

/-- Storing digits answers them in order and changes no register. -/
theorem run_storeDigits (r : Reg) (is : List Nat) (s : State)
    (hs : s.faultOutput = false) (his : ∀ i ∈ is, i < s.inst.n) :
    ∃ req : Request s.inst.w, Sys2Proof.core.run is.length (s.issue (storeDigits s.inst.w r is)) =
      .next (s.afterCommands s.v req (digitResponses (s.reg r) is ++ s.responses)) := by
  induction is generalizing s with
  | nil => exact ⟨s.request, rfl⟩
  | cons i is ih =>
    obtain ⟨hi, his⟩ := List.forall_mem_cons.1 his
    obtain ⟨req, hrun⟩ := ih (s.storedDigit r i) hs his
    exact ⟨req, (run_succ_of_step _ (step_storeDigits_cons r is hs hi)).trans
      (hrun.trans (congrArg _ (s.afterCommands_storedDigit r i is req)))⟩

/-! ### The obligation -/

/-- `LDV` leaves the literal in its register (R83). -/
theorem run_loadLiteral (s : State) (r : Reg) (v : Nat) (hs : s.faultOutput = false) :
    ∃ req : Request s.inst.w, Sys2Proof.core.run s.inst.n (s.issue (loadLiteral s.inst r v)) =
      .next (s.afterCommands (s.v.set r (dig s.inst.w s.inst.n v)) req
        (List.replicate s.inst.n (okResponse _) ++ s.responses)) := by
  have hload := run_loadDigits r (List.range s.inst.n) s (digitAt (dig s.inst.w s.inst.n v)) hs
    fun _ => List.mem_range.1
  rwa [List.length_range, putDigits_range] at hload

/-- `STV` answers the digits of its register and changes no register (R83). -/
theorem run_storeValue (s : State) (r : Reg) {a : Value s.inst.w s.inst.n} (hs : s.faultOutput = false)
    (ha : s.reg r = a) :
    ∃ req : Request s.inst.w, Sys2Proof.core.run s.inst.n (s.issue ((Pseudo.stv r).expand s.inst)) =
      .next (s.afterCommands s.v req (digitResponses a (List.range s.inst.n) ++ s.responses)) := by
  have hstore := run_storeDigits r (List.range s.inst.n) s hs fun _ => List.mem_range.1
  rwa [List.length_range, ha] at hstore

/-- Settles O25: the `N` loads leave the literal in the register, and the `N` stores answer its digits. -/
theorem loadedLiteralReadsBack : Obligations.LoadedLiteralReadsBack := by
  intro s r v hs _
  obtain ⟨lastLoad, hload⟩ := run_loadLiteral (s.issue ((Pseudo.stv r).expand s.inst)) r v hs
  obtain ⟨lastStore, hstore⟩ := run_storeValue (s.afterCommands (s.v.set r (dig s.inst.w s.inst.n v)) lastLoad
    (List.replicate s.inst.n (okResponse _) ++ s.responses)) r hs (State.reg_setReg_self s r _)
  refine ⟨lastStore, ?_⟩
  rw [State.issue_append, two_mul, List.append_assoc]
  exact (run_add_of_run _ _ hload).trans hstore

end Sys2Proof.Machine

/-! Family `30_encoding.md`: words and commands. Each format has one lemma for each direction: what its
check answers for a word it encodes, and what a word it accepts must be. The two round trips are the cases of
the opcode map over those lemmas; then the response of a transaction, the data-in values, and the constants of
the pseudo-instructions. -/

namespace Sys2Proof

/-! ### The word of a command decodes -/

/-- An unused register field holds 0 (R81). -/
@[simp] theorem bitsOfReg_zero : bitsOfReg 0 = 0#3 := rfl

section
variable (op : BitVec 8) (var : BitVec 3) (sgn : BitVec 1) (rd rs1 rs2 xr : Reg)

@[simp] theorem regField_rd_encodeR : regField .rd (encodeR op var sgn rd rs1 rs2 xr) = rd := by
  rw [regField, regBits_rd_encodeR, regOfBits_bitsOfReg]

@[simp] theorem regField_rs1_encodeR : regField .rs1 (encodeR op var sgn rd rs1 rs2 xr) = rs1 := by
  rw [regField, regBits_rs1_encodeR, regOfBits_bitsOfReg]

@[simp] theorem regField_rs2_encodeR : regField .rs2 (encodeR op var sgn rd rs1 rs2 xr) = rs2 := by
  rw [regField, regBits_rs2_encodeR, regOfBits_bitsOfReg]

@[simp] theorem regField_xr_encodeR : regField .xr (encodeR op var sgn rd rs1 rs2 xr) = xr := by
  rw [regField, regBits_xr_encodeR, regOfBits_bitsOfReg]

@[simp] theorem regField_rd_encodeD (r : Reg) (idx : DigitIdx) : regField .rd (encodeD op r idx) = r := by
  rw [regField, regBits_rd_encodeD, regOfBits_bitsOfReg]

end

theorem formZ_encodeZ (op : BitVec 8) (i : Instr) : formZ (encodeZ op) i = .ok i := by
  rw [formZ, topBits_encodeZ]
  rfl

/-- A format D word with 0 in the fields its command does not use is accepted. -/
theorem formD_encodeD {op : BitVec 8} {r : Reg} {idx : DigitIdx} {usesR usesIdx : Bool} {i : Instr}
    (hr : usesR = true ∨ r = 0) (hidx : usesIdx = true ∨ idx = 0) (hi : i.wellFormed = true) :
    formD (encodeD op r idx) usesR usesIdx i = .ok i := by
  have hrd : (usesR || bitsOfReg r == 0#3) = true := by
    obtain rfl | rfl := hr <;> simp
  have hix : (usesIdx || idx == 0#16) = true := by
    obtain rfl | rfl := hidx <;> simp
  simp [formD, hrd, hix, hi]

/-- A format R word with 0 in the unused fields is accepted as the command its row lists for `VAR`. -/
theorem formR_encodeR {op : BitVec 8} {var : BitVec 3} {sgn : BitVec 1} {rd rs1 rs2 xr : Reg}
    {unused : List RegField} {unsigned signed : VariantRow} {i : Instr}
    (hunused : ∀ f ∈ unused, regBits f (encodeR op var sgn rd rs1 rs2 xr) = 0#3)
    (hrow : (if sgn = 1#1 then signed else unsigned).lookup var.toNat = some i) :
    formR (encodeR op var sgn rd rs1 rs2 xr) unused unsigned signed = .ok i := by
  have hall : unused.all (fun f => regBits f (encodeR op var sgn rd rs1 rs2 xr) == 0#3) = true := by
    simpa using hunused
  simp [formR, hall, hrow]

/-- Settles O1: the opcode selects the command's own check, which accepts the word. The last case holds every
command of format R. -/
theorem encodedCommandDecodesBack : Obligations.EncodedCommandDecodesBack := by
  intro i hi
  cases i with
  | nop | fclr =>
    show decode (encodeZ _) = _
    unfold decode
    rw [opField_encodeZ]
    exact formZ_encodeZ _ _
  | ldd | std =>
    show decode (encodeD _ _ _) = _
    unfold decode
    rw [opField_encodeD, regField_rd_encodeD, idxField_encodeD]
    exact formD_encodeD (.inl rfl) (.inl rfl) hi
  | lds =>
    show decode (encodeD _ _ _) = _
    unfold decode
    rw [opField_encodeD, regField_rd_encodeD]
    exact formD_encodeD (.inl rfl) (.inr rfl) hi
  | rcs =>
    show decode (encodeD _ _ _) = _
    unfold decode
    rw [opField_encodeD, idxField_encodeD]
    exact formD_encodeD (.inr rfl) (.inl rfl) hi
  | _ =>
    show decode (encodeR _ _ _ _ _ _ _) = _
    unfold decode
    rw [opField_encodeR]
    refine formR_encodeR (by simp) ?_
    simp only [regField_rd_encodeR, regField_rs1_encodeR, regField_rs2_encodeR, regField_xr_encodeR]
    rfl

/-! ### A word is made of its fields -/

/-- A field put back where it was read. -/
theorem getLsbD_placeField_extractLsb' (w : Word) (low k i : Nat) :
    (placeField (w.extractLsb' low k) low).getLsbD i = (decide (low ≤ i ∧ i < low + k) && w.getLsbD i) := by
  rw [getLsbD_placeField, BitVec.getLsbD_extractLsb']
  by_cases hlow : low ≤ i
  · have hk : i - low < k ↔ i < low + k := by omega
    by_cases hi : i < 32
    · simp [hlow, hk, hi]
    · simp [hi, BitVec.getLsbD_of_ge w i (by omega)]
  · simp [hlow]

/-- A set bit lies outside a field that is 0. -/
theorem lt_or_ge_of_extractLsb'_eq_zero {w : Word} {low k i : Nat} (h : w.extractLsb' low k = 0#k)
    (hi : w.getLsbD i = true) : i < low ∨ low + k ≤ i := by
  by_contra hin
  have hbit := congrArg (·.getLsbD (i - low)) h
  simp only [BitVec.getLsbD_extractLsb', BitVec.getLsbD_zero, Nat.add_sub_cancel' (show low ≤ i by omega), hi,
    show i - low < k by omega] at hbit
  cases hbit

theorem encodeR_fields {w : Word} (h : w.extractLsb' 24 8 = 0#8) :
    encodeR (opField w) (varField w) (sgnField w) (regField .rd w) (regField .rs1 w) (regField .rs2 w)
      (regField .xr w) = w := by
  apply BitVec.eq_of_getLsbD_eq
  intro i hi
  simp only [encodeR, regField, bitsOfReg_regOfBits, opField, varField, sgnField, regBits, regFieldLow,
    BitVec.getLsbD_or, getLsbD_placeField_extractLsb']
  cases hw : w.getLsbD i with
  | false => simp only [Bool.and_false, Bool.or_false]
  | true =>
    have htop := lt_or_ge_of_extractLsb'_eq_zero h hw
    simp only [Bool.and_true, Bool.or_eq_true, decide_eq_true_eq]
    omega

theorem encodeD_fields {w : Word} (hlow : w.extractLsb' 8 4 = 0#4) (hbit : w.extractLsb' 15 1 = 0#1) :
    encodeD (opField w) (regField .rd w) (idxField w) = w := by
  apply BitVec.eq_of_getLsbD_eq
  intro i hi
  simp only [encodeD, regField, bitsOfReg_regOfBits, opField, idxField, regBits, regFieldLow,
    BitVec.getLsbD_or, getLsbD_placeField_extractLsb']
  cases hw : w.getLsbD i with
  | false => simp only [Bool.and_false, Bool.or_false]
  | true =>
    have hlow := lt_or_ge_of_extractLsb'_eq_zero hlow hw
    have hbit := lt_or_ge_of_extractLsb'_eq_zero hbit hw
    simp only [Bool.and_true, Bool.or_eq_true, decide_eq_true_eq]
    omega

theorem encodeZ_fields {w : Word} (h : w.extractLsb' 8 24 = 0#24) : encodeZ (opField w) = w := by
  apply BitVec.eq_of_getLsbD_eq
  intro i hi
  simp only [encodeZ, opField, getLsbD_placeField_extractLsb']
  cases hw : w.getLsbD i with
  | false => simp only [Bool.and_false]
  | true =>
    have htop := lt_or_ge_of_extractLsb'_eq_zero h hw
    simp only [Bool.and_true, decide_eq_true_eq]
    omega

/-! ### A word that decodes is an encoding -/

theorem ofNat_eq_opField {w : Word} {op : Nat} (hop : (opField w).toNat = op) :
    BitVec.ofNat 8 op = opField w := by
  rw [← hop, BitVec.ofNat_toNat, BitVec.setWidth_eq]

/-- The register of a field that a command writes into its word: 0 where it does not use the field (R81). -/
def usedReg (unused : List RegField) (f : RegField) (w : Word) : Reg :=
  if f ∈ unused then 0 else regField f w

theorem usedReg_eq_regField {w : Word} {unused : List RegField} (h : ∀ f ∈ unused, regBits f w = 0#3)
    (f : RegField) : usedReg unused f w = regField f w := by
  unfold usedReg
  split
  next hf => rw [regField, h f hf]; rfl
  next => rfl

/-- The commands of a row of the opcode map are well formed, and each is written with the row's opcode, its
own `VAR`, the reading of the row and the registers of `w` (R78, R81). -/
def RowEncodes (op : Nat) (w : Word) (unused : List RegField) (sgn : BitVec 1) (row : VariantRow) : Prop :=
  row.map (fun p => (p.2.wellFormed, encode p.2)) = row.map fun p =>
    (true, encodeR (BitVec.ofNat 8 op) (BitVec.ofNat 3 p.1) sgn (usedReg unused .rd w) (usedReg unused .rs1 w)
      (usedReg unused .rs2 w) (usedReg unused .xr w))

theorem RowEncodes.of_lookup {op : Nat} {w : Word} {unused : List RegField} {sgn : BitVec 1} {row : VariantRow}
    {k : Nat} {i : Instr} (h : RowEncodes op w unused sgn row) (hi : row.lookup k = some i) :
    i.wellFormed = true ∧ encode i = encodeR (BitVec.ofNat 8 op) (BitVec.ofNat 3 k) sgn (usedReg unused .rd w)
      (usedReg unused .rs1 w) (usedReg unused .rs2 w) (usedReg unused .xr w) := by
  obtain ⟨before, after, hrow, -⟩ := List.lookup_eq_some_iff.1 hi
  have hmem : (k, i) ∈ row := hrow ▸ List.mem_append_right before List.mem_cons_self
  exact Prod.mk.inj (List.map_inj_left.1 h _ hmem)

section
variable {op : Nat} {w : Word} {i j : Instr}

theorem encode_eq_of_formZ (hop : (opField w).toNat = op) (h : formZ w i = .ok j)
    (hi : i.wellFormed = true ∧ encode i = encodeZ (BitVec.ofNat 8 op)) :
    j.wellFormed = true ∧ encode j = w := by
  obtain ⟨hwf, henc⟩ := hi
  unfold formZ at h
  split at h
  next hzero =>
    cases h
    exact ⟨hwf, by rw [henc, ofNat_eq_opField hop, encodeZ_fields (beq_iff_eq.1 hzero)]⟩
  next => cases h

theorem encode_eq_of_formD {usesR usesIdx : Bool} (hop : (opField w).toNat = op)
    (h : formD w usesR usesIdx i = .ok j)
    (henc : encode i = encodeD (BitVec.ofNat 8 op) (if usesR then regField .rd w else 0)
      (if usesIdx then idxField w else 0)) :
    j.wellFormed = true ∧ encode j = w := by
  unfold formD at h
  split at h
  next hzero =>
    simp only [Bool.and_eq_true, beq_iff_eq, Bool.or_eq_true] at hzero
    obtain ⟨⟨⟨hbit, hlow⟩, hr⟩, hidx⟩ := hzero
    have hr : (if usesR then regField .rd w else 0) = regField .rd w := by
      obtain rfl | hr := hr
      · rfl
      · rw [regField, hr]; exact ite_self _
    have hidx : (if usesIdx then idxField w else 0) = idxField w := by
      obtain rfl | hidx := hidx
      · rfl
      · rw [hidx]; exact ite_self _
    split at h
    next hwf =>
      cases h
      exact ⟨hwf, by rw [henc, hr, hidx, ofNat_eq_opField hop, encodeD_fields hlow hbit]⟩
    next => cases h
  next => cases h

theorem encode_eq_of_formR {unused : List RegField} {unsigned signed : VariantRow}
    (hop : (opField w).toNat = op) (h : formR w unused unsigned signed = .ok i)
    (hunsigned : RowEncodes op w unused 0#1 unsigned) (hsigned : RowEncodes op w unused 1#1 signed) :
    i.wellFormed = true ∧ encode i = w := by
  have hrow : RowEncodes op w unused (sgnField w) (if sgnField w == 1#1 then signed else unsigned) := by
    obtain hsgn | hsgn := BitVec.eq_zero_or_eq_one (sgnField w) <;> rw [hsgn]
    · exact hunsigned
    · exact hsigned
  unfold formR at h
  split at h
  next hzero =>
    simp only [Bool.and_eq_true, beq_iff_eq, List.all_eq_true] at hzero
    obtain ⟨htop, hunused⟩ := hzero
    split at h
    next hj =>
      cases h
      obtain ⟨hwf, henc⟩ := hrow.of_lookup hj
      refine ⟨hwf, henc.trans ?_⟩
      simp only [ofNat_eq_opField hop, usedReg_eq_regField hunused, BitVec.ofNat_toNat, BitVec.setWidth_eq]
      exact encodeR_fields htop
    next => cases h
  next => cases h

end

/-- Settles O2, row by row of the opcode map: rows 1 and 9 are the opcodes of format Z, rows 3, 4, 5 and 8
those of format D, and the last case is a byte that is no opcode. -/
theorem decodedWordIsItsEncoding : Obligations.DecodedWordIsItsEncoding := by
  intro w i h
  unfold decode at h
  dsimp only at h
  split at h
  case h_1 | h_9 => exact encode_eq_of_formZ ‹_› h ⟨rfl, rfl⟩
  case h_3 | h_4 | h_5 | h_8 => exact encode_eq_of_formD ‹_› h rfl
  case h_43 => cases h
  all_goals exact encode_eq_of_formR ‹_› h rfl rfl

/-- Settles O3: the decoder, run on each word. -/
theorem specWordsDecode : Obligations.SpecWordsDecode := by
  unfold Obligations.SpecWordsDecode
  exact ⟨by decide, by decide⟩

end Sys2Proof

namespace Sys2Proof.Machine

open Sys2Proof.Claims

/-! ### Words that are no command -/

/-- A word that no well-formed command encodes does not decode, since a word that decodes is an encoding. -/
theorem decode_error_of_no_command {w : Word} (h : ∀ i : Instr, i.wellFormed = true → encode i ≠ w) :
    ∃ e, decode w = .error e := by
  cases hw : decode w with
  | error e => exact ⟨e, rfl⟩
  | ok i =>
    obtain ⟨hwf, henc⟩ := decodedWordIsItsEncoding w i hw
    exact absurd henc (h i hwf)

/-- With no fault active, a word that does not decode raises `Illegal` (R79, R312). -/
theorem transact_of_decode_error {s : State} {e : Illegal} (hs : s.faultOutput = false)
    (he : decode s.request.cmd = .error e) : transact s = .next (s.raise .illegal) := by
  rw [transact, hs, he]
  rfl

theorem faultWord_eq_faultRegister (c : Cause) : faultWord c = faultRegister c := by
  cases c <;> rfl

theorem State.raise_eq_faulted (s : State) (c : Cause) : s.raise c = faulted s c := by
  rw [faulted, ← faultWord_eq_faultRegister]
  rfl

/-- Settles O5: the word does not decode, and the transaction raises `Illegal`. -/
theorem wordWithoutCommandRaisesIllegal : Obligations.WordWithoutCommandRaisesIllegal := by
  intro s req rest hin hs hno
  obtain ⟨e, he⟩ := decode_error_of_no_command hno
  calc step s = transact (taken s req rest) := step_of_command hin
    _ = .next ((taken s req rest).raise .illegal) := transact_of_decode_error hs he
    _ = .next (faulted (taken s req rest) .illegal) := by rw [State.raise_eq_faulted]

/-! ### One response for each transaction (R71) -/

/-- From `s` to `t` the host has received exactly one response and none of its moves was taken; a response
that is not `OK` carries no data, a digit that is not 0 is answered only when `digit` holds, and a 32-bit word
that is not 0 only when `word` holds. -/
def Answered (s t : State) (digit word : Prop) : Prop :=
  ∃ (status : Status) (d : Nat) (x : Word),
    log t = (status, d, x) :: log s ∧ t.inputs.length = s.inputs.length ∧
      (status ≠ .ok → d = 0 ∧ x = 0) ∧ (d ≠ 0 → digit) ∧ (x ≠ 0 → word)

/-- What a digit or a word in the response means may be weakened. -/
theorem Answered.imp {s t : State} {digit word digit' word' : Prop} (h : Answered s t digit word)
    (hdigit : digit → digit') (hword : word → word') : Answered s t digit' word' := by
  obtain ⟨status, d, x, hlog, hinputs, hok, hd, hx⟩ := h
  exact ⟨status, d, x, hlog, hinputs, hok, hdigit ∘ hd, hword ∘ hx⟩

section
variable {digit word : Prop} (s : State)

theorem answered_respond_bare (status : Status) : Answered s (s.respond ⟨status, 0, 0⟩) digit word :=
  ⟨status, 0, 0, rfl, rfl, fun _ => ⟨rfl, rfl⟩, absurd rfl, absurd rfl⟩

theorem answered_respond_digit (d : BitVec s.inst.w) (h : digit) :
    Answered s (s.respond ⟨.ok, d, 0⟩) digit word :=
  ⟨.ok, d.toNat, 0, rfl, rfl, absurd rfl, fun _ => h, absurd rfl⟩

theorem answered_respond_word (x : Word) (h : word) : Answered s (s.respond ⟨.ok, 0, x⟩) digit word :=
  ⟨.ok, 0, x, rfl, rfl, absurd rfl, absurd rfl, fun _ => h⟩

theorem answered_done : Answered s s.done digit word := answered_respond_bare s .ok

theorem answered_raise (c : Cause) : Answered s (s.raise c) digit word :=
  answered_respond_bare { s with fault := faultWord c, fcmd := s.request.cmd } .fault

theorem answered_setReg_done (r : Reg) (a : Value s.inst.w s.inst.n) :
    Answered s (s.setReg r a).done digit word :=
  answered_done (s.setReg r a)

theorem answered_setExpo_done (r : Reg) (e : Word) : Answered s (s.setExpo r e).done digit word :=
  answered_done (s.setExpo r e)

theorem answered_setFlags_done (f : Word) : Answered s (s.setFlags f).done digit word :=
  answered_done (s.setFlags f)

theorem answered_deliver (var : Variant) (rd : Reg) (x : Triple s.inst.w s.inst.n) :
    Answered s (s.deliver var rd x) digit word := by
  obtain ⟨-, h⟩ | ⟨-, -, h⟩ | ⟨-, -, h⟩ | ⟨-, h⟩ | ⟨-, -, h⟩ | ⟨-, -, h⟩ | ⟨-, -, -, h⟩ | ⟨-, -, h⟩ :=
    s.deliver_cases var rd x <;> rw [h]
  · exact answered_setReg_done s _ _
  · exact answered_setFlags_done s _
  · exact answered_setFlags_done (s.setReg rd x.wrapped) _
  · exact answered_setFlags_done (s.setReg rd x.wrapped) _
  · exact answered_setReg_done s _ _
  · exact answered_setReg_done s _ _
  · exact answered_raise s _
  · exact answered_setReg_done s _ _

theorem answered_deliverDivision (var : Variant) (rd : Reg) (d : Value s.inst.w s.inst.n)
    (x : Triple s.inst.w s.inst.n) : Answered s (s.deliverDivision var rd d x) digit word := by
  obtain ⟨-, h⟩ | ⟨-, h⟩ := s.deliverDivision_cases var rd d x <;> rw [h]
  · obtain ⟨-, h⟩ | ⟨-, h⟩ := s.divideByZero_cases var <;> rw [h]
    · exact answered_setFlags_done s _
    · exact answered_raise s _
  · exact answered_deliver s var rd x

end

/-- Every command ends in a next state with one response; `STD` alone answers a digit, and `STX` and `RCS`
alone a 32-bit word. The last case holds the commands that deliver under a variant. -/
theorem exec_answered (i : Instr) (s : State) :
    ∃ t, exec i s = .next t ∧
      Answered s t (∃ r idx, i = .std r idx) ((∃ xr, i = .stx xr) ∨ ∃ idx, i = .rcs idx) := by
  cases i with
  | std r idx =>
    refine ⟨_, rfl, ?_⟩
    split
    · exact answered_respond_digit s _ ⟨r, idx, rfl⟩
    · exact answered_raise s _
  | stx xr => exact ⟨_, rfl, answered_respond_word s _ (.inl ⟨xr, rfl⟩)⟩
  | rcs idx =>
    refine ⟨_, rfl, ?_⟩
    split
    · exact answered_respond_word s _ (.inr ⟨idx, rfl⟩)
    · exact answered_raise s _
  | nop => exact ⟨_, rfl, answered_done s⟩
  | fclr => exact ⟨_, rfl, answered_done s.clearFault⟩
  | ldd r idx =>
    refine ⟨_, rfl, ?_⟩
    split
    · exact answered_setReg_done s _ _
    · exact answered_raise s _
  | bit rs1 xr =>
    refine ⟨_, rfl, ?_⟩
    split
    · exact answered_raise s _
    · exact answered_setFlags_done s _
  | log2C xr rs1 =>
    refine ⟨_, rfl, ?_⟩
    split
    · exact answered_setFlags_done s _
    · exact answered_setFlags_done (s.writeLog2 xr rs1) _
  | log2 xr rs1 =>
    refine ⟨_, rfl, ?_⟩
    split
    · exact answered_raise s _
    · exact answered_setExpo_done s _ _
  | mov | lds | rotl | rotr | swapb | revb | not | gcd => exact ⟨_, rfl, answered_setReg_done s _ _⟩
  | ldx | blen | clz | ctz | clo | cto | cnt1 | cnt0 => exact ⟨_, rfl, answered_setExpo_done s _ _⟩
  | cmp | cmpS | eq | isz | isone | isp2 | isneg => exact ⟨_, rfl, answered_setFlags_done s _⟩
  | divW | divC | divO | divSat | div | divWS | divCS | divOS | divSatS | divS
  | remW | remC | remO | rem | remWS | remCS | remOS | remS
  | diveW | diveC | diveO | diveSat | dive | diveWS | diveCS | diveOS | diveSatS | diveS
  | remeW | remeC | remeO | reme | remeWS | remeCS | remeOS | remeS =>
    exact ⟨_, rfl, answered_deliverDivision s _ _ _ _⟩
  | _ => exact ⟨_, rfl, answered_deliver s _ _ _⟩

/-- Every transaction ends in a next state with one response, and its word names the command that answers
data. -/
theorem transact_answered (s : State) :
    ∃ t, transact s = .next t ∧ Answered s t (∃ r idx, decode s.request.cmd = .ok (.std r idx))
      ((∃ xr, decode s.request.cmd = .ok (.stx xr)) ∨ ∃ idx, decode s.request.cmd = .ok (.rcs idx)) := by
  obtain ⟨-, -, h⟩ | ⟨-, ⟨e, -, h⟩ | ⟨i, hi, h⟩⟩ := transact_cases s
  · exact ⟨_, h, answered_respond_bare s .rejected⟩
  · exact ⟨_, h, answered_raise s _⟩
  · obtain ⟨t, ht, hanswer⟩ := exec_answered i s
    refine ⟨t, h.trans ht, hanswer.imp ?_ ?_⟩
    · rintro ⟨r, idx, rfl⟩
      exact ⟨r, idx, hi⟩
    · rintro (⟨xr, rfl⟩ | ⟨idx, rfl⟩)
      · exact .inl ⟨xr, hi⟩
      · exact .inr ⟨idx, hi⟩

/-- Settles O10: the step is the transaction, which is answered once. -/
theorem everyTransactionIsAnsweredOnce : Obligations.EveryTransactionIsAnsweredOnce := by
  intro s req rest hin
  obtain ⟨t, ht, status, d, x, hanswer⟩ := transact_answered (taken s req rest)
  exact ⟨t, status, d, x, (step_of_command hin).trans ht, hanswer⟩

/-! ### The data-in values (R70) -/

/-- The state with the data-in values of the request forgotten. -/
def State.forget (s : State) : State := { s with request := ⟨s.request.cmd, 0, 0⟩ }

theorem State.forget_ite (c : Prop) [Decidable c] (s t : State) :
    (if c then s else t).forget = if c then s.forget else t.forget :=
  apply_ite State.forget c s t

theorem State.deliver_forget (s : State) (var : Variant) (rd : Reg) (t : Triple s.inst.w s.inst.n) :
    s.forget.deliver var rd t = (s.deliver var rd t).forget := by
  cases var with
  | wrapping | overflowing | saturating => rfl
  | checked | panicking => exact Eq.symm (State.forget_ite _ _ _)

theorem State.divideByZero_forget (s : State) (var : Variant) :
    s.forget.divideByZero var = (s.divideByZero var).forget := by
  cases var <;> rfl

theorem State.deliverDivision_forget (s : State) (var : Variant) (rd : Reg) (d : Value s.inst.w s.inst.n)
    (t : Triple s.inst.w s.inst.n) :
    s.forget.deliverDivision var rd d t = (s.deliverDivision var rd d t).forget := by
  obtain ⟨hd, h⟩ | ⟨hd, h⟩ := s.deliverDivision_cases var rd d t <;> rw [h]
  · rw [← s.divideByZero_forget]; exact if_pos hd
  · rw [← s.deliver_forget]; exact if_neg (Bool.not_eq_true _ ▸ hd)

/-- `RCS` of a control register that does not exist raises `Illegal` (R79). -/
theorem exec_rcs_of_no_csr {s : State} {idx : DigitIdx} (h : s.csr idx = none) :
    exec (.rcs idx) s = .next (s.raise .illegal) := by
  show execRcs idx s = _
  rw [execRcs, h]

/-- The commands that read a data-in value (R122, R124, R125). -/
def readsDataIn (i : Instr) : Bool :=
  match i with
  | .ldd .. | .lds .. | .ldx .. => true
  | _ => false

/-- A command that reads no data-in value does the same with both forgotten. The last case holds the commands
whose rule has no branch. -/
theorem exec_forget (i : Instr) (s : State) (hi : readsDataIn i = false) :
    ∃ t, exec i s = .next t ∧ exec i s.forget = .next t.forget := by
  cases i with
  | ldd | lds | ldx => cases hi
  | std | bit | log2C | log2 => exact ⟨_, rfl, Eq.symm (congrArg Host.Outcome.next (State.forget_ite _ _ _))⟩
  | rcs idx =>
    cases hc : s.csr idx with
    | some c => exact ⟨_, exec_rcs_of_csr hc, exec_rcs_of_csr (s := s.forget) hc⟩
    | none => exact ⟨_, exec_rcs_of_no_csr hc, exec_rcs_of_no_csr (s := s.forget) hc⟩
  | divW | divC | divO | divSat | div | divWS | divCS | divOS | divSatS | divS
  | remW | remC | remO | rem | remWS | remCS | remOS | remS
  | diveW | diveC | diveO | diveSat | dive | diveWS | diveCS | diveOS | diveSatS | diveS
  | remeW | remeC | remeO | reme | remeWS | remeCS | remeOS | remeS =>
    exact ⟨_, rfl, congrArg Host.Outcome.next (s.deliverDivision_forget _ _ _ _)⟩
  | shlW | shlC | shlO | shl | shrW | shrC | shrO | shr | shrWS | shrCS | shrOS | shrS
  | addW | addC | addO | addSat | add | addWS | addCS | addOS | addSatS | addS
  | subW | subC | subO | subSat | sub | subWS | subCS | subOS | subSatS | subS
  | mulW | mulC | mulO | mulSat | mul | mulWS | mulCS | mulOS | mulSatS | mulS
  | npotW | npotC | npotO | npot
  | negW | negWS | negCS | negOS | negSatS | negS | absWS | absCS | absOS | absSatS | absS =>
    exact ⟨_, rfl, congrArg Host.Outcome.next (s.deliver_forget _ _ _)⟩
  | _ => exact ⟨_, rfl, rfl⟩

/-- A command that reads no data-in value does the same from two states that differ in those values only. -/
theorem forgetData_exec_congr {i : Instr} {s t : State} (hi : readsDataIn i = false) (hst : s.forget = t.forget) :
    forgetData (exec i s) = forgetData (exec i t) := by
  obtain ⟨s', hs, hs'⟩ := exec_forget i s hi
  obtain ⟨t', ht, ht'⟩ := exec_forget i t hi
  rw [hs, ht]
  exact hs'.symm.trans ((congrArg (exec i) hst).trans ht')

theorem forgetData_exec_ldd (s : State) (r : Reg) (idx : DigitIdx) :
    forgetData (exec (.ldd r idx) s) = .next (if s.indexInRange idx then
      (s.setDigit r idx.toNat s.dinDigit).done.forget else (s.raise .index).forget) :=
  congrArg Host.Outcome.next (State.forget_ite _ _ _)

/-- Settles O12: `LDD` tests its index and never reads `din_x`; `LDS` and `LDX` read their own value only; any
other command reads neither. -/
theorem dataInReadByLoadsOnly : Obligations.DataInReadByLoadsOnly := by
  intro i s d x
  cases i with
  | ldd r idx => exact (forgetData_exec_ldd _ r idx).trans (forgetData_exec_ldd s r idx).symm
  | lds | ldx => rfl
  | _ => exact forgetData_exec_congr rfl rfl

/-! ### The constants of the pseudo-instructions (R83) -/

theorem dig_mod (w n v : Nat) : dig w n (v % 2 ^ (n * w)) = dig w n v := by
  rw [eq_dig_iff, val_dig, Nat.mod_mod]

/-- One digit, zero-extended, is the value of its number (R124). -/
theorem valueOfFn_single {w : Nat} (n : Nat) (d : BitVec w) :
    (valueOfFn n fun i => if i = 0 then d else 0) = dig w n d.toNat := by
  refine congrArg (valueOfFn n) (funext fun i => BitVec.eq_of_toNat_eq ?_)
  obtain rfl | hi := Nat.eq_zero_or_pos i
  · simp
  · have hlt : d.toNat < 2 ^ (w * i) :=
      d.isLt.trans_le (Nat.pow_le_pow_right two_pos (Nat.le_mul_of_pos_right w hi))
    simp [hi.ne', Nat.shiftRight_eq_zero _ _ hlt]

theorem digits_notN {w n : Nat} (a : Value w n) : (notN a).digits = a.digits.map (~~~ ·) := by
  have hl := a.length_digits
  apply List.ext_getElem (by simp [notN, hl])
  intro i h1 h2
  have hi : i < n := by simpa [notN] using h1
  simp [notN, digitAt, List.getD_eq_getElem?_getD, hl ▸ hi]

/-- A digit list and its complement add up to all ones. -/
theorem natOfDigits_map_not {w : Nat} (ds : List (BitVec w)) :
    natOfDigits (ds.map (~~~ ·)) + natOfDigits ds + 1 = 2 ^ (w * ds.length) := by
  induction ds with
  | nil => simp [natOfDigits]
  | cons d ds ih =>
    have hd : (~~~d).toNat + d.toNat + 1 = 2 ^ w := by
      have := d.isLt
      rw [BitVec.toNat_not]
      omega
    simp only [List.map_cons, natOfDigits, List.length_cons]
    calc _ = ((~~~d).toNat + d.toNat + 1) + 2 ^ w * (natOfDigits (ds.map (~~~ ·)) + natOfDigits ds) := by ring
      _ = 2 ^ w * (natOfDigits (ds.map (~~~ ·)) + natOfDigits ds + 1) := by rw [hd]; ring
      _ = 2 ^ (w * (ds.length + 1)) := by rw [ih, Nat.mul_succ, pow_add, Nat.mul_comm]

/-- A value and its complement add up to `UMAX` (R194). -/
theorem val_notN {w n : Nat} (a : Value w n) : (notN a).val + a.val + 1 = 2 ^ (n * w) := by
  have h := natOfDigits_map_not a.digits
  rw [← digits_notN, a.length_digits, Nat.mul_comm] at h
  exact h

theorem notN_dig {w n v : Nat} (hv : v < 2 ^ (n * w)) : notN (dig w n v) = dig w n (2 ^ (n * w) - 1 - v) := by
  have h := val_notN (dig w n v)
  rw [val_dig, Nat.mod_eq_of_lt hv] at h
  rw [eq_dig_iff, Nat.mod_eq_of_lt (by omega)]
  omega

/-- From `s` the requests run to the end, each is answered `OK` without data, register `r` holds the digits of
`v`, and no other register is changed. -/
def LeavesNumber (s : State) (reqs : List (Request s.inst.w)) (r : Reg) (v : Nat) : Prop :=
  ∃ req : Request s.inst.w, Sys2Proof.core.run reqs.length (s.issue reqs) =
    .next (s.afterCommands (s.v.set r (dig s.inst.w s.inst.n v)) req
      (List.replicate reqs.length (okResponse _) ++ s.responses))

theorem leavesNumber_loadLiteral {s : State} (r : Reg) (v : Nat) (hs : s.faultOutput = false) :
    LeavesNumber s (loadLiteral s.inst r v) r v := by
  have hlength : (loadLiteral s.inst r v).length = s.inst.n := by simp [loadLiteral]
  rw [LeavesNumber, hlength]
  exact run_loadLiteral s r v hs

theorem leavesNumber_loadSmall {s : State} (r : Reg) (d : BitVec s.inst.w) (hs : s.faultOutput = false) :
    LeavesNumber s [loadSmall r d] r d.toNat := by
  have hstep : step (s.issue [loadSmall r d]) = exec (.lds r) (s.accept (loadSmall r d)) :=
    step_issue_cons [] hs (encodedCommandDecodesBack _ rfl)
  refine ⟨loadSmall r d, (run_succ_of_step 0 hstep).trans ?_⟩
  rw [← valueOfFn_single]
  rfl

/-- `NOT Vr, Vr` complements the register (R194). -/
theorem step_complement {s : State} (r : Reg) {a : Value s.inst.w s.inst.n} (hs : s.faultOutput = false)
    (ha : s.reg r = a) :
    step (s.issue [complement r]) = .next ((s.accept (complement r)).setReg r (notN a)).done := by
  subst ha
  exact step_issue_cons (i := .not r r) [] hs (encodedCommandDecodesBack _ rfl)

/-- `NOT Vr, Vr` after requests that leave `v` in `r` leaves `2^BITS - 1 - v`. -/
theorem leavesNumber_append_complement {s : State} {reqs : List (Request s.inst.w)} {r : Reg} {v : Nat}
    (hs : s.faultOutput = false) (hv : v < mN s) (h : LeavesNumber (s.issue [complement r]) reqs r v) :
    LeavesNumber s (reqs ++ [complement r]) r (mN s - 1 - v) := by
  obtain ⟨req, hrun⟩ := h
  have hstep := step_complement (s := s.afterCommands (s.v.set r (dig s.inst.w s.inst.n v)) req
    (List.replicate reqs.length (okResponse _) ++ s.responses)) r hs (State.reg_setReg_self s r _)
  have hvalue : (s.v.set r (dig s.inst.w s.inst.n v)).set r (notN (dig s.inst.w s.inst.n v)) =
      s.v.set r (dig s.inst.w s.inst.n (mN s - 1 - v)) := by
    rw [notN_dig hv]
    exact Vector.set_set _ r.isLt
  refine ⟨complement r, ?_⟩
  rw [State.issue_append, List.length_append]
  refine (run_add_of_run _ _ hrun).trans ((run_succ_of_step 0 hstep).trans ?_)
  exact congrArg₂ (fun v out => Host.Outcome.next (s.afterCommands v (complement r) out)) hvalue rfl

/-- Settles O26: `CLR` and `SET1` are one `LDS`, `LDSMIN` is a literal, and `LDMAX` and `LDSMAX` are the
complements of 0 and of `SMIN`. -/
theorem pseudoInstructionsLoadConstants : Obligations.PseudoInstructionsLoadConstants := by
  intro s r hs _ p hp
  suffices h : LeavesNumber s (p.1.expand s.inst) r p.2 by
    obtain ⟨req, hrun⟩ := h
    refine ⟨req, hrun.trans ?_⟩
    rw [← dig_mod]
    rfl
  simp only [List.mem_cons, List.not_mem_nil, or_false] at hp
  obtain rfl | rfl | rfl | rfl | rfl := hp
  · exact leavesNumber_loadSmall r 0 hs
  · have hone : (1#s.inst.w).toNat = 1 := by simp
    exact hone ▸ leavesNumber_loadSmall r 1 hs
  · exact leavesNumber_append_complement (reqs := [loadSmall r 0]) hs (Nat.two_pow_pos _)
      (leavesNumber_loadSmall r 0 hs)
  · exact leavesNumber_loadLiteral r _ hs
  · have hbits : 0 < s.inst.bits := Nat.mul_pos s.inst.count_ok (Nat.two_pow_pos _)
    have hhalf : mN s = 2 * hN s := by rw [← pow_succ', Nat.sub_add_cancel hbits]
    have hlt : hN s < mN s := Nat.pow_lt_pow_right one_lt_two (Nat.sub_lt hbits one_pos)
    have hmax : hN s - 1 = mN s - 1 - hN s := by omega
    rw [hmax]
    exact leavesNumber_append_complement hs hlt (leavesNumber_loadLiteral r _ hs)

end Sys2Proof.Machine

/-! Family `40_overflow_variants.md`: the checked forms, and the zero divisor. What delivery, `DivZeroCheck` and
`LOG2.C` do is said once for each operation; every command is then one use of it. -/

namespace Sys2Proof.Machine

open Sys2Proof.Claims

/-! ### Checked delivery (R102) -/

theorem State.deliver_checked (s : State) (rd : Reg) (x : Triple s.inst.w s.inst.n) :
    s.deliver .checked rd x = if x.overflow then (s.setFlags (putNone true s.flags)).done
      else ((s.setReg rd x.wrapped).setFlags (putNone false s.flags)).done := rfl

theorem State.divideByZero_checked (s : State) :
    s.divideByZero .checked = (s.setFlags (putNone true s.flags)).done := rfl

/-- From `s` to `t` the host has received one `OK` without data, and no fault was taken or cleared. -/
def AnsweredOk (s t : State) : Prop :=
  log t = (.ok, 0, 0) :: log s ∧ t.fault = s.fault ∧ t.fcmd = s.fcmd

section
variable {t : State} (s : State)

theorem answeredOk_setFlags_done (f : Word) : AnsweredOk s (s.setFlags f).done := ⟨rfl, rfl, rfl⟩

/-- A value register written first is neither a response nor a fault register. -/
theorem AnsweredOk.of_setReg {s : State} {r : Reg} {a : Value s.inst.w s.inst.n}
    (h : AnsweredOk (s.setReg r a) t) : AnsweredOk s t := h

/-- An exponent register written first is neither a response nor a fault register. -/
theorem AnsweredOk.of_setExpo {s : State} {r : Reg} {e : Word} (h : AnsweredOk (s.setExpo r e) t) :
    AnsweredOk s t := h

theorem answeredOk_deliver_checked (rd : Reg) (x : Triple s.inst.w s.inst.n) :
    AnsweredOk s (s.deliver .checked rd x) := by
  rw [s.deliver_checked]
  split
  · exact answeredOk_setFlags_done s _
  · exact (answeredOk_setFlags_done _ _).of_setReg

/-- A zero divisor is no exception: under C it is absence, not a fault (R108). -/
theorem answeredOk_deliverDivision_checked (rd : Reg) (d : Value s.inst.w s.inst.n)
    (x : Triple s.inst.w s.inst.n) : AnsweredOk s (s.deliverDivision .checked rd d x) := by
  obtain ⟨-, h⟩ | ⟨-, h⟩ := s.deliverDivision_cases .checked rd d x <;> rw [h]
  · rw [s.divideByZero_checked]
    exact answeredOk_setFlags_done s _
  · exact answeredOk_deliver_checked s rd x

end

/-- A command whose rule names `NONE`, bit 1 of `FLAGS`, answers `OK` and takes no fault. -/
theorem exec_answeredOk_of_flagBits {i : Instr} (s : State) (hi : flagBits i = [1]) :
    ∃ t, exec i s = .next t ∧ AnsweredOk s t := by
  cases i with
  | log2C xr rs1 =>
    refine ⟨_, rfl, ?_⟩
    split
    · exact answeredOk_setFlags_done s _
    · exact AnsweredOk.of_setExpo (answeredOk_setFlags_done (s.writeLog2 xr rs1) _)
  | divC | divCS | remC | remCS | diveC | diveCS | remeC | remeCS =>
    exact ⟨_, rfl, answeredOk_deliverDivision_checked s _ _ _⟩
  | shlC | shrC | shrCS | addC | addCS | subC | subCS | mulC | mulCS | npotC | negCS | absCS =>
    exact ⟨_, rfl, answeredOk_deliver_checked s _ _⟩
  | _ => cases hi

theorem flagBits_of_mem_checkedForms (rd a b xr : Reg) : ∀ i ∈ checkedForms rd a b xr, flagBits i = [1] := by
  simp [checkedForms, flagBits]

/-- Settles O20: the checked forms are commands whose rule names `NONE`, and those answer `OK`. -/
theorem checkedFormsNeverFault : Obligations.CheckedFormsNeverFault := by
  intro s rd a b xr i hi
  exact exec_answeredOk_of_flagBits s (flagBits_of_mem_checkedForms rd a b xr i hi)

/-! ### The zero divisor (R108) -/

/-- The all-digits scan finds a value zero exactly when each of its digits is. -/
theorem isZeroN_iff {w n : Nat} (a : Value w n) : isZeroN a = true ↔ ∀ k, k < n → digitAt a k = 0 := by
  simp [isZeroN]

theorem State.deliverDivision_of_isZeroN {s : State} {d : Value s.inst.w s.inst.n} (hd : isZeroN d = true)
    (var : Variant) (rd : Reg) (x : Triple s.inst.w s.inst.n) :
    s.deliverDivision var rd d x = s.divideByZero var := if_pos hd

theorem State.divideByZero_of_ne_checked (s : State) {var : Variant} (hvar : var ≠ .checked) :
    s.divideByZero var = s.raise .divZero := by
  obtain ⟨h, -⟩ | ⟨-, h⟩ := s.divideByZero_cases var
  · exact absurd h hvar
  · exact h

/-- A checked division or remainder command is `DivZeroCheck` and delivery under C. -/
theorem exec_checkedDivision (s : State) (rd a b : Reg) : ∀ i ∈ checkedDivisions rd a b,
    ∃ x, exec i s = .next (s.deliverDivision .checked rd (s.reg b) x) := by
  simp only [checkedDivisions, List.forall_mem_cons, List.not_mem_nil, false_imp_iff, implies_true, and_true]
  and_intros <;> exact ⟨_, rfl⟩

/-- Every other division or remainder command is `DivZeroCheck` and delivery under its own variant. -/
theorem exec_uncheckedDivision (s : State) (rd a b : Reg) : ∀ i ∈ uncheckedDivisions rd a b,
    ∃ var x, exec i s = .next (s.deliverDivision var rd (s.reg b) x) ∧ var ≠ .checked := by
  simp only [uncheckedDivisions, List.forall_mem_cons, List.not_mem_nil, false_imp_iff, implies_true, and_true]
  and_intros <;> exact ⟨_, _, rfl, by decide⟩

/-- Settles O51: the scan finds the divisor zero, and the variant decides between absence and the fault. -/
theorem divisionByZero : Obligations.DivisionByZero := by
  intro s rd a b hzero
  have hb : isZeroN (s.reg b) = true := (isZeroN_iff _).2 hzero
  constructor
  · intro i hi
    obtain ⟨x, hx⟩ := exec_checkedDivision s rd a b i hi
    rw [hx, State.deliverDivision_of_isZeroN hb, s.divideByZero_checked]
    rfl
  · intro i hi
    obtain ⟨var, x, hx, hvar⟩ := exec_uncheckedDivision s rd a b i hi
    rw [hx, State.deliverDivision_of_isZeroN hb, s.divideByZero_of_ne_checked hvar, State.raise_eq_faulted]

end Sys2Proof.Machine

/-! Family `41_data_movement.md`: data movement and control. Each next state the rules build from the named
operations is one of the shapes the statements speak of, said once; a command is then its rule and that shape. -/

namespace Sys2Proof.Machine

open Sys2Proof.Claims

/-! ### The shapes of next states -/

theorem State.done_eq_answered (s : State) : s.done = answered s := rfl

theorem State.respond_ok_eq_gave (s : State) (d : BitVec s.inst.w) (x : Word) :
    s.respond ⟨.ok, d, x⟩ = gave s d x := rfl

theorem State.setReg_done_eq_wroteV (s : State) (r : Reg) (a : Value s.inst.w s.inst.n) :
    (s.setReg r a).done = wroteV s r a s.flags := rfl

theorem State.setExpo_done_eq_wroteX (s : State) (r : Reg) (e : Word) :
    (s.setExpo r e).done = wroteX s r e s.flags := rfl

/-! ### One digit (R122, R123) -/

theorem State.indexInRange_of_ge {s : State} {idx : DigitIdx} (h : s.inst.n ≤ idx.toNat) :
    s.indexInRange idx = false := decide_eq_false (Nat.not_lt.2 h)

/-- `LDD` of a digit that exists leaves the register with that digit replaced. -/
theorem exec_ldd_eq_wroteV {s : State} {idx : DigitIdx} (r : Reg) (h : idx.toNat < s.inst.n) :
    exec (.ldd r idx) s = .next (wroteV s r (putDigit (s.reg r) idx.toNat s.request.dinD) s.flags) := by
  have hexec := exec_ldd_of_lt s r h
  rwa [BitVec.ofNat_toNat, BitVec.setWidth_eq, State.setDigit, State.setReg_done_eq_wroteV] at hexec

/-- `STD` of a digit that exists answers it and writes nothing. -/
theorem exec_std_eq_gave {s : State} {idx : DigitIdx} (r : Reg) (h : idx.toNat < s.inst.n) :
    exec (.std r idx) s = .next (gave s (digitAt (s.reg r) idx.toNat) 0) := by
  have hexec := exec_std_of_lt s r h
  rwa [BitVec.ofNat_toNat, BitVec.setWidth_eq, State.respond_ok_eq_gave] at hexec

/-- `LDD` at an index of `N` or more faults, since the index is used as it stands (R55). -/
theorem exec_ldd_of_ge {s : State} {idx : DigitIdx} (r : Reg) (h : s.inst.n ≤ idx.toNat) :
    exec (.ldd r idx) s = .next (faulted s .index) := by
  show execLdd r idx s = _
  rw [execLdd, State.indexInRange_of_ge h, ← State.raise_eq_faulted]
  rfl

/-- `STD` at an index of `N` or more faults in the same way. -/
theorem exec_std_of_ge {s : State} {idx : DigitIdx} (r : Reg) (h : s.inst.n ≤ idx.toNat) :
    exec (.std r idx) s = .next (faulted s .index) := by
  show execStd r idx s = _
  rw [execStd, State.indexInRange_of_ge h, ← State.raise_eq_faulted]
  rfl

/-- Settles O22: the index test decides between the digit and the fault, and the digit `LDD` writes is
`putDigit`'s. -/
theorem loadAndStoreDigit : Obligations.LoadAndStoreDigit := by
  intro s r idx
  refine ⟨fun hlt => ⟨⟨_, exec_ldd_eq_wroteV r hlt, fun k => ?_⟩, exec_std_eq_gave r hlt⟩,
    fun hge => ⟨exec_ldd_of_ge r hge, exec_std_of_ge r hge⟩⟩
  simp only [digitAt_putDigit, hlt, and_true]

/-! ### Whole registers and exponents -/

/-- `LDS` writes the number of the data-in digit: one digit with zeros above it is `dig` of its number. -/
theorem exec_lds_eq_wroteV (s : State) (r : Reg) :
    exec (.lds r) s = .next (wroteV s r (num s s.request.dinD.toNat) s.flags) := by
  have hvalue : (valueOfFn s.inst.n fun i => if i = 0 then s.dinDigit else 0) = num s s.request.dinD.toNat :=
    (valueOfFn_single _ _).trans (dig_mod _ _ _).symm
  show execLds r s = _
  rw [execLds, hvalue, State.setReg_done_eq_wroteV]

/-- Settles O23: `LDS` is the zero-extended digit, and `LDX` and `STX` have one rule without a branch. -/
theorem loadSmallAndExponents : Obligations.LoadSmallAndExponents := by
  intro s r
  refine ⟨exec_lds_eq_wroteV s r, ?_, ?_⟩
  · exact congrArg Host.Outcome.next (s.setExpo_done_eq_wroteX r s.dinExpo)
  · exact congrArg Host.Outcome.next (s.respond_ok_eq_gave 0 (s.expo r))

/-- Settles O21: `NOP` is the bare answer, and `MOV` the write of the source register. -/
theorem nopAndMove : Obligations.NopAndMove := by
  intro s rd rs
  constructor
  · exact congrArg Host.Outcome.next s.done_eq_answered
  · exact congrArg Host.Outcome.next (s.setReg_done_eq_wroteV rd (s.reg rs))

/-! ### Control registers -/

/-- Settles O24: the seven numbers name the seven control registers, and `FCLR` answers after clearing the
fault. -/
theorem readControlAndClearFault : Obligations.ReadControlAndClearFault := by
  intro s
  refine ⟨?_, ?_, ?_, ?_, ?_, ?_, ?_, ?fclr⟩
  case fclr => exact congrArg Host.Outcome.next s.clearFault.done_eq_answered
  all_goals exact exec_rcs_of_csr rfl

end Sys2Proof.Machine

/-! Family `42_compare_test.md`: comparison and tests. Each datapath scan is tied once to the number the value
stands for (equality, order, zero, one, power of two, sign, bit length, one bit); a command is then its rule and
that fact. -/

namespace Sys2Proof.Machine

open Sys2Proof.Claims

/-! ### Digits and bits of the number a value stands for -/

section
variable {w n : Nat}

theorem natOfDigits_append (as bs : List (BitVec w)) :
    natOfDigits (as ++ bs) = natOfDigits as + 2 ^ (w * as.length) * natOfDigits bs := by
  induction as with
  | nil => simp [natOfDigits]
  | cons a as ih =>
    simp only [List.cons_append, natOfDigits, ih, List.length_cons, Nat.mul_succ, pow_add]
    ring

/-- Digit `k` is the low `W` bits of the number shifted down by `k` digits. -/
theorem digitAt_eq_ofNat_val (a : Value w n) (k : Nat) : digitAt a k = BitVec.ofNat w (a.val >>> (w * k)) := by
  have hdig : digitAt a k = digitAt (dig w n a.val) k := by rw [dig_val]
  rw [hdig, dig, digitAt_valueOfFn]
  split
  · rfl
  · next hk =>
    have hle : n * w ≤ w * k := Nat.mul_comm n w ▸ Nat.mul_le_mul_left w (Nat.not_lt.1 hk)
    have hlt : a.val < 2 ^ (w * k) := (val_lt a).trans_le (Nat.pow_le_pow_right two_pos hle)
    rw [Nat.shiftRight_eq_zero _ _ hlt]
    rfl

/-- `bitof` reads the bits of the number (`00_scope.md` section 6). -/
theorem bitOf_eq_testBit (hw : 0 < w) (a : Value w n) (k : Nat) : bitOf a k = a.val.testBit k := by
  rw [bitOf, digitAt_eq_ofNat_val, BitVec.getLsbD_ofNat, Nat.testBit_shiftRight, Nat.div_add_mod]
  simp [Nat.mod_lt k hw]

/-- The digits from `k` up are digit `k` and, one place higher, the digits above it. -/
theorem val_div_eq_digitAt_add (a : Value w n) (k : Nat) :
    a.val / 2 ^ (w * k) = (digitAt a k).toNat + 2 ^ w * (a.val / 2 ^ (w * (k + 1))) := by
  rw [digitAt_eq_ofNat_val, BitVec.toNat_ofNat, Nat.shiftRight_eq_div_pow, Nat.mul_succ, pow_add,
    ← Nat.div_div_eq_div_mul, Nat.mod_add_div]

/-- Values that agree from digit `k` up have the same number there. -/
theorem val_div_congr (hw : 0 < w) {a b : Value w n} {k : Nat} (h : ∀ j, k ≤ j → digitAt a j = digitAt b j) :
    a.val / 2 ^ (w * k) = b.val / 2 ^ (w * k) := by
  apply Nat.eq_of_testBit_eq
  intro i
  have hk : k ≤ (i + w * k) / w := Nat.add_mul_div_left i k hw ▸ Nat.le_add_left k _
  rw [Nat.testBit_div_two_pow, Nat.testBit_div_two_pow, ← bitOf_eq_testBit hw, ← bitOf_eq_testBit hw, bitOf,
    bitOf, h _ hk]

/-- The highest digit where two values differ orders their numbers. -/
theorem val_lt_val_of_digitAt_lt (hw : 0 < w) {a b : Value w n} {k : Nat}
    (habove : ∀ j, k < j → j < n → digitAt a j = digitAt b j) (hk : (digitAt a k).toNat < (digitAt b k).toNat) :
    a.val < b.val := by
  have hhigh : a.val / 2 ^ (w * (k + 1)) = b.val / 2 ^ (w * (k + 1)) :=
    val_div_congr hw fun j hj => by
      obtain hjn | hjn := Nat.lt_or_ge j n
      · exact habove j hj hjn
      · rw [digitAt_ge a hjn, digitAt_ge b hjn]
  apply Nat.lt_of_div_lt_div (c := 2 ^ (w * k))
  rw [val_div_eq_digitAt_add a, val_div_eq_digitAt_add b, hhigh]
  exact Nat.add_lt_add_right hk _

/-! ### Equality and order (R140, R141, R143) -/

theorem eqN_iff_digitAt (a b : Value w n) : eqN a b = true ↔ ∀ k, k < n → digitAt a k = digitAt b k := by
  simp [eqN]

theorem value_eq_iff_digitAt {a b : Value w n} : a = b ↔ ∀ k, k < n → digitAt a k = digitAt b k :=
  ⟨fun h _ _ => h ▸ rfl, value_ext⟩

theorem eqN_iff_eq (a b : Value w n) : eqN a b = true ↔ a = b :=
  (eqN_iff_digitAt a b).trans value_eq_iff_digitAt.symm

/-- The sign bit weighs `2^BITS`, which is more than any number: it is the sign of the signed reading (R12). -/
theorem sval_neg_iff (a : Value w n) : sval a < 0 ↔ sign a = true := by
  have hlt : (a.val : Int) < 2 ^ (n * w) := by exact_mod_cast val_lt a
  cases h : sign a
  · simp [sval, h]
  · simpa [sval, h] using hlt

/-- Values of the same sign differ under the signed reading as they do under the unsigned one. -/
theorem sval_sub_sval {a b : Value w n} (h : sign a = sign b) : sval a - sval b = (a.val : Int) - b.val := by
  rw [sval, sval, h]
  ring

theorem sval_inj {a b : Value w n} : sval a = sval b ↔ a = b := by
  refine ⟨fun h => ?_, fun h => h ▸ rfl⟩
  have hsign : sign a = sign b := by rw [Bool.eq_iff_iff, ← sval_neg_iff, ← sval_neg_iff, h]
  have hsub := sval_sub_sval hsign
  rw [← val_inj]
  omega

theorem add_mul_lt_add_mul {B d x y : Nat} (hd : d < B) (h : x < y) (e : Nat) : d + B * x < e + B * y := by
  have hle : B * (x + 1) ≤ B * y := Nat.mul_le_mul_left B h
  rw [Nat.mul_succ] at hle
  omega

/-- The higher part of a number decides a comparison, and the lowest digit breaks a tie. -/
theorem compare_add_mul {B d e : Nat} (hd : d < B) (he : e < B) (x y : Nat) :
    compare (d + B * x) (e + B * y) = (compare x y).then (compare d e) := by
  obtain h | rfl | h := Nat.lt_trichotomy x y
  · rw [Nat.compare_eq_lt.2 h]
    exact Nat.compare_eq_lt.2 (add_mul_lt_add_mul hd h e)
  · simp [Nat.compare_eq_ite_lt]
  · rw [Nat.compare_eq_gt.2 h]
    exact Nat.compare_eq_gt.2 (add_mul_lt_add_mul he h d)

theorem cmpScan_cons (a b : BitVec w) (as bs : List (BitVec w)) :
    cmpScan (a :: as) (b :: bs) = (compare a.toNat b.toNat).then (cmpScan as bs) := by
  rw [cmpScan, Nat.compare_eq_ite_lt]
  split
  · rfl
  · split <;> rfl

/-- The last digits of the scan, the least significant ones, break a tie. -/
theorem cmpScan_append_singleton (a b : BitVec w) {as bs : List (BitVec w)} (hl : as.length = bs.length) :
    cmpScan (as ++ [a]) (bs ++ [b]) = (cmpScan as bs).then (compare a.toNat b.toNat) := by
  induction as generalizing bs with
  | nil =>
    obtain rfl := List.length_eq_zero_iff.1 hl.symm
    simp [cmpScan_cons, cmpScan]
  | cons a' as ih =>
    cases bs with
    | nil => cases hl
    | cons b' bs =>
      rw [List.cons_append, List.cons_append, cmpScan_cons, cmpScan_cons, ih (Nat.succ.inj hl),
        Ordering.then_assoc]

/-- The scan from the top digit down orders the numbers. -/
theorem cmpScan_reverse {as bs : List (BitVec w)} (hl : as.length = bs.length) :
    cmpScan as.reverse bs.reverse = compare (natOfDigits as) (natOfDigits bs) := by
  induction as generalizing bs with
  | nil =>
    obtain rfl := List.length_eq_zero_iff.1 hl.symm
    rfl
  | cons a as ih =>
    cases bs with
    | nil => cases hl
    | cons b bs =>
      have hlength : as.length = bs.length := Nat.succ.inj hl
      rw [List.reverse_cons, List.reverse_cons, cmpScan_append_singleton a b (by simpa using hlength),
        ih hlength, natOfDigits, natOfDigits, compare_add_mul a.isLt b.isLt]

/-- `CmpN` orders the operands as their values are ordered (R141). -/
theorem cmpN_eq_compare (a b : Value w n) : cmpN a b = compare a.val b.val :=
  cmpScan_reverse (a.length_digits.trans b.length_digits.symm)

/-- The signed comparison orders the operands as their signed values are ordered (R143). -/
theorem cmpSignedN_eq_compare (a b : Value w n) : cmpSignedN a b = compare (sval a) (sval b) := by
  rw [cmpSignedN]
  by_cases hsign : sign a = sign b
  · have hsub := sval_sub_sval hsign
    rw [if_neg (by simp [hsign]), cmpN_eq_compare, Nat.compare_eq_ite_lt, Int.compare_eq_ite_lt]
    simp only [show a.val < b.val ↔ sval a < sval b by omega, show b.val < a.val ↔ sval b < sval a by omega]
  · rw [if_pos (by simpa using hsign)]
    cases ha : sign a
    · have hb : sign b = true := by simpa [ha] using hsign
      have hpos : ¬ sval a < 0 := by simp [sval_neg_iff, ha]
      exact (Int.compare_eq_gt.2 (((sval_neg_iff b).2 hb).trans_le (Int.not_lt.1 hpos))).symm
    · have hb : sign b = false := by simpa [ha] using hsign
      have hpos : ¬ sval b < 0 := by simp [sval_neg_iff, hb]
      exact (Int.compare_eq_lt.2 (((sval_neg_iff a).2 ha).trans_le (Int.not_lt.1 hpos))).symm

/-! ### Zero, one and powers of two (R145 to R147) -/

theorem isZeroN_iff_eq (a : Value w n) : isZeroN a = true ↔ a = zeroV w n := by
  rw [isZeroN_iff, value_eq_iff_digitAt]
  simp +contextual [zeroV]

theorem toNat_eq_zero_iff (d : BitVec w) : d.toNat = 0 ↔ d = 0 := by
  rw [← BitVec.toNat_inj]
  simp

theorem natOfDigits_eq_zero_iff (ds : List (BitVec w)) : natOfDigits ds = 0 ↔ ∀ d ∈ ds, d = 0 := by
  induction ds with
  | nil => simp [natOfDigits]
  | cons d ds ih =>
    simp [natOfDigits, ih, toNat_eq_zero_iff]

/-- `ZERO` stands for 0 (R13). -/
theorem val_zeroV : (zeroV w n).val = 0 := by
  rw [Value.val, natOfDigits_eq_zero_iff]
  exact fun _ => List.eq_of_mem_replicate

theorem isOneN_iff_eq (a : Value w n) : isOneN a = true ↔ a = oneV w n := by
  rw [value_eq_iff_digitAt]
  simp +contextual [isOneN, oneV]

/-- `ONE` stands for 1 (R13). -/
theorem val_oneV (hw : 0 < w) (hn : 0 < n) : (oneV w n).val = 1 := by
  rw [show oneV w n = dig w n (1#w).toNat from valueOfFn_single n 1, val_dig,
    BitVec.toNat_ofNat, Nat.mod_eq_of_lt (Nat.one_lt_two_pow hw.ne'),
    Nat.mod_eq_of_lt (Nat.one_lt_two_pow (Nat.mul_pos hn hw).ne')]

/-- A digit with no two bits set is a power of two. -/
theorem digit_and_sub_one_eq_zero_iff {d : BitVec w} (hd : d ≠ 0) :
    d &&& (d - 1#w) = 0 ↔ ∃ k, d.toNat = 2 ^ k := by
  have hpos : d.toNat ≠ 0 := mt (toNat_eq_zero_iff d).1 hd
  have hw : 1 < 2 ^ w := (Nat.succ_le_succ (Nat.pos_of_ne_zero hpos)).trans d.isLt
  have hone : (1#w).toNat = 1 := Nat.mod_eq_of_lt hw
  have hle : 1#w ≤ d := BitVec.le_def.2 (hone.le.trans (Nat.pos_of_ne_zero hpos))
  rw [← BitVec.toNat_inj, BitVec.toNat_and, BitVec.toNat_sub_of_le hle, hone]
  exact Nat.and_sub_one_eq_zero_iff_isPowerOfTwo hpos

/-- With the lowest digit zero, a number is a power of two exactly when the digits above make one. -/
theorem two_pow_mul_eq_two_pow_iff (w m : Nat) : (∃ k, 2 ^ w * m = 2 ^ k) ↔ ∃ k, m = 2 ^ k := by
  constructor
  · rintro ⟨k, hk⟩
    obtain ⟨j, -, hj⟩ := (Nat.dvd_prime_pow Nat.prime_two).1 (Dvd.intro_left _ hk)
    exact ⟨j, hj⟩
  · rintro ⟨k, rfl⟩
    exact ⟨w + k, (pow_add 2 w k).symm⟩

/-- With the lowest digit not zero, a number is a power of two exactly when that digit is one and nothing stands
above it. -/
theorem add_two_pow_mul_eq_two_pow_iff {w d m : Nat} (hd : d ≠ 0) (hlt : d < 2 ^ w) :
    (∃ k, d + 2 ^ w * m = 2 ^ k) ↔ (∃ k, d = 2 ^ k) ∧ m = 0 := by
  constructor
  · rintro ⟨k, hk⟩
    have hkw : k < w := by
      by_contra hge
      have hdvd : 2 ^ w ∣ d + 2 ^ w * m := hk ▸ Nat.pow_dvd_pow 2 (Nat.not_lt.1 hge)
      exact hd (Nat.eq_zero_of_dvd_of_lt ((Nat.dvd_add_left (Nat.dvd_mul_right _ m)).1 hdvd) hlt)
    have hm : m = 0 := by
      by_contra hm
      have hle : 2 ^ w ≤ 2 ^ w * m := Nat.le_mul_of_pos_right _ (Nat.pos_of_ne_zero hm)
      have hlt' : 2 ^ k < 2 ^ w := Nat.pow_lt_pow_right one_lt_two hkw
      omega
    subst hm
    exact ⟨⟨k, hk⟩, rfl⟩
  · rintro ⟨⟨k, hk⟩, rfl⟩
    exact ⟨k, hk⟩

/-- The power-of-two test on a digit list: one digit that is not 0, and no digit with two bits set. -/
theorem isPow2_digits_iff (ds : List (BitVec w)) :
    (ds.countP (fun d => d != 0#w) = 1 ∧ ∀ d ∈ ds, d = 0 ∨ d &&& (d - 1#w) = 0) ↔
      ∃ k, natOfDigits ds = 2 ^ k := by
  induction ds with
  | nil => simp [natOfDigits, (Nat.two_pow_pos _).ne]
  | cons d ds ih =>
    rw [List.forall_mem_cons, natOfDigits]
    by_cases hd : d = 0
    · subst hd
      rw [List.countP_cons_of_neg (by simp), (toNat_eq_zero_iff 0).2 rfl, Nat.zero_add,
        two_pow_mul_eq_two_pow_iff, ← ih]
      simp only [true_or, true_and]
    · have hpos : d.toNat ≠ 0 := mt (toNat_eq_zero_iff d).1 hd
      rw [List.countP_cons_of_pos (by simpa using hd), add_two_pow_mul_eq_two_pow_iff hpos d.isLt,
        ← digit_and_sub_one_eq_zero_iff hd, natOfDigits_eq_zero_iff, Nat.add_eq_right, List.countP_eq_zero]
      simp only [hd, false_or, bne_iff_ne, ne_eq, not_not]
      exact ⟨fun ⟨hz, hp, _⟩ => ⟨hp, hz⟩, fun ⟨hp, hz⟩ => ⟨hz, hp, fun e he => .inl (hz e he)⟩⟩

theorem isPow2N_iff_val (a : Value w n) : isPow2N a = true ↔ ∃ k, a.val = 2 ^ k := by
  rw [Value.val, ← isPow2_digits_iff]
  simp [isPow2N]

/-! ### Leading zeros and the bit length (R149, R180) -/

/-- The zero bits at the top of `w` bits are those above the highest 1. -/
theorem runOf_false_add_size {w v : Nat} (hv : v < 2 ^ w) :
    runOf false ((List.range w).map v.testBit).reverse + v.size = w := by
  induction w with
  | zero =>
    obtain rfl : v = 0 := by simpa using hv
    rfl
  | succ w ih =>
    rw [List.range_succ, List.map_append, List.reverse_append]
    obtain hlt | hge := Nat.lt_or_ge v (2 ^ w)
    · have hbit : v.testBit w = false := Nat.testBit_lt_two_pow hlt
      have hrun : runOf false (v.testBit w :: ((List.range w).map v.testBit).reverse) =
          runOf false ((List.range w).map v.testBit).reverse + 1 := by simp [runOf, hbit]
      exact (congrArg (· + v.size) hrun).trans (by rw [Nat.add_right_comm, ih hlt])
    · have hbit : v.testBit w = true := Nat.testBit_of_two_pow_le_and_two_pow_add_one_gt hge hv
      have hsize : v.size = w + 1 := le_antisymm (Nat.size_le.2 hv) (Nat.lt_size.2 hge)
      simp [runOf, hbit, hsize]

/-- `clz_W` counts the bits of a digit above its bit length (R190). -/
theorem clzDigit_add_size (d : BitVec w) : clzDigit d + d.toNat.size = w :=
  runOf_false_add_size d.isLt

/-- A digit that is not zero, on top of `m` bits, decides the bit length. -/
theorem size_add_two_pow_mul {m x y : Nat} (hx : x < 2 ^ m) (hy : y ≠ 0) : (x + 2 ^ m * y).size = m + y.size := by
  apply le_antisymm
  · rw [Nat.size_le, pow_add]
    have := Nat.mul_le_mul_left (2 ^ m) (Nat.lt_size_self y)
    rw [Nat.mul_succ] at this
    omega
  · obtain ⟨j, hj⟩ : ∃ j, y.size = j + 1 := Nat.exists_eq_succ_of_ne_zero (mt Nat.size_eq_zero.1 hy)
    have := Nat.mul_le_mul_left (2 ^ m) (Nat.lt_size.1 (hj ▸ Nat.lt_succ_self j : j < y.size))
    rw [hj, ← Nat.add_assoc, Nat.succ_le_iff, Nat.lt_size, pow_add]
    omega

/-- The scan of leading zeros, most significant digit first, counts the bits above the bit length (R180). -/
theorem countScan_clz_add_size (ds : List (BitVec w)) :
    countScan 0 clzDigit ds + (natOfDigits ds.reverse).size = w * ds.length := by
  induction ds with
  | nil => simp [countScan, natOfDigits]
  | cons d ds ih =>
    rw [List.reverse_cons, natOfDigits_append, countScan, List.length_cons, Nat.mul_succ]
    by_cases hd : d = 0
    · subst hd
      have hzero : natOfDigits [(0 : BitVec w)] = 0 := by simp [natOfDigits]
      rw [if_pos rfl, hzero, Nat.mul_zero, Nat.add_zero]
      omega
    · have hpos : d.toNat ≠ 0 := mt (toNat_eq_zero_iff d).1 hd
      have hclz := clzDigit_add_size d
      have hsize := size_add_two_pow_mul (natOfDigits_lt ds.reverse) hpos
      rw [List.length_reverse] at hsize
      rw [if_neg hd, natOfDigits, natOfDigits, Nat.mul_zero, Nat.add_zero, List.length_reverse, hsize]
      omega

/-- `ClzN` counts the bits above the bit length (R180). -/
theorem clzN_add_size (a : Value w n) : clzN a + a.val.size = n * w := by
  have h := countScan_clz_add_size a.digits.reverse
  rw [List.reverse_reverse, List.length_reverse, a.length_digits, Nat.mul_comm] at h
  exact h

/-- `bits()` is the bit length of the number (R149). -/
theorem bitLenN_eq_size (a : Value w n) : bitLenN a = a.val.size := by
  rw [bitLenN, ← clzN_add_size a, Nat.add_sub_cancel_left]

end

/-! ### The shapes of next states -/

theorem State.deliverOrder_eq_wroteF (s : State) (o : Ordering) :
    s.deliverOrder o = wroteF s (putOrd (ordCode o) s.flags) := rfl

theorem State.deliverTest_eq_wroteF (s : State) (b : Bool) : s.deliverTest b = wroteF s (putT b s.flags) := rfl

theorem State.deliverCount_eq_wroteX (s : State) (xr : Reg) (count : Nat) :
    s.deliverCount xr count = wroteX s xr (BitVec.ofNat 32 count) s.flags := rfl

/-- A test that answers whether `p` holds writes that to `FLAGS.T`. -/
theorem State.deliverTest_eq_wroteF_decide (s : State) {b : Bool} {p : Prop} [Decidable p] (h : b = true ↔ p) :
    s.deliverTest b = wroteF s (putT (decide p) s.flags) := by
  rw [s.deliverTest_eq_wroteF, Bool.eq_iff_iff.2 (h.trans decide_eq_true_iff.symm)]

/-- `BIT` of a bit that exists tests it. -/
theorem exec_bit_of_lt {s : State} (a : Reg) {xr : Reg} (h : eX s xr < s.inst.bits) :
    exec (.bit a xr) s = .next (s.deliverTest (bitOf (s.reg a) (eX s xr))) :=
  congrArg Host.Outcome.next (if_neg (Nat.not_le.2 h))

/-- `BIT` at `BITS` or more faults. -/
theorem exec_bit_of_ge {s : State} (a : Reg) {xr : Reg} (h : s.inst.bits ≤ eX s xr) :
    exec (.bit a xr) s = .next (s.raise .index) :=
  congrArg Host.Outcome.next (if_pos h)

/-! ### The obligations -/

theorem w_pos (i : Instance) : 0 < i.w := Nat.two_pow_pos _

/-- Settles O27: equal digits are equal values, and either reading tells values apart. -/
theorem equalityIsDigitWise : Obligations.EqualityIsDigitWise := by
  intro i a b
  exact ⟨eqN_iff_digitAt a b, (eqN_iff_eq a b).trans val_inj.symm, (eqN_iff_eq a b).trans sval_inj.symm⟩

/-- Settles O28: the scan orders the numbers, which the highest differing digit orders. -/
theorem comparisonFollowsDigitsAndValues : Obligations.ComparisonFollowsDigitsAndValues := by
  intro i a b
  simp only [cmpN_eq_compare, and_true]
  refine ⟨fun k _ habove => ⟨fun hlt => ?_, fun hgt => ?_⟩, fun h => ?_⟩
  · exact Nat.compare_eq_lt.2 (val_lt_val_of_digitAt_lt (w_pos i) habove hlt)
  · exact Nat.compare_eq_gt.2 (val_lt_val_of_digitAt_lt (w_pos i) (fun j hj hjn => (habove j hj hjn).symm) hgt)
  · exact Nat.compare_eq_eq.2 (val_inj.2 (value_ext h))

/-- Settles O29: each comparison writes the order its scan finds. -/
theorem compareCommands : Obligations.CompareCommands := by
  intro s a b
  rw [← cmpN_eq_compare, ← cmpSignedN_eq_compare]
  exact ⟨congrArg Host.Outcome.next (s.deliverOrder_eq_wroteF _),
    congrArg Host.Outcome.next (s.deliverOrder_eq_wroteF _)⟩

/-- Settles O30: each test writes what its scan finds of the value. -/
theorem testCommands : Obligations.TestCommands := by
  intro s a b
  refine ⟨?eq, ?isz, ?isone, ⟨isPow2N (s.reg a), ?isp2, ?pow⟩, ?isneg⟩
  case eq =>
    exact congrArg Host.Outcome.next (s.deliverTest_eq_wroteF_decide ((eqN_iff_eq _ _).trans val_inj.symm))
  case isz =>
    have hzero : (zeroV s.inst.w s.inst.n).val = 0 := val_zeroV
    exact congrArg Host.Outcome.next
      (s.deliverTest_eq_wroteF_decide ((isZeroN_iff_eq _).trans (hzero ▸ val_inj.symm)))
  case isone =>
    have hone : (oneV s.inst.w s.inst.n).val = 1 := val_oneV (w_pos s.inst) s.inst.count_ok
    exact congrArg Host.Outcome.next
      (s.deliverTest_eq_wroteF_decide ((isOneN_iff_eq _).trans (hone ▸ val_inj.symm)))
  case isp2 => exact congrArg Host.Outcome.next (s.deliverTest_eq_wroteF _)
  case pow =>
    rw [isPow2N_iff_val]
    refine ⟨fun ⟨k, hk⟩ => ⟨k, ?_, hk⟩, fun ⟨k, _, hk⟩ => ⟨k, hk⟩⟩
    exact (Nat.pow_lt_pow_iff_right one_lt_two).1 (hk ▸ val_lt (s.reg a))
  case isneg => exact congrArg Host.Outcome.next (s.deliverTest_eq_wroteF_decide (sval_neg_iff _).symm)

/-- Settles O31: `BLEN` writes the bit length of the number, and `BIT` reads the number's own bit. -/
theorem bitLengthAndBitTest : Obligations.BitLengthAndBitTest := by
  intro s a xr
  refine ⟨⟨(uA s a).size, Nat.size_le.2 (val_lt _), ?_, Nat.lt_size_self _, fun j => Nat.size_le.2⟩,
    fun hlt => ?_, fun hge => ?_⟩
  · rw [← bitLenN_eq_size]
    exact congrArg Host.Outcome.next (s.deliverCount_eq_wroteX xr _)
  · rw [exec_bit_of_lt a hlt, bitOf_eq_testBit (w_pos s.inst), s.deliverTest_eq_wroteF]
  · rw [exec_bit_of_ge a hge, State.raise_eq_faulted]

end Sys2Proof.Machine

/-! Family `43_shift_rotate.md`: the barrel shifter. Each datapath function is tied once to the bits of the number a
value stands for, since a digit move and a sub-digit shift with its carry move every bit by the same amount; the
arithmetic of the shifts and the laws of the rotates follow from the bits. -/

namespace Sys2Proof.Machine

open Sys2Proof.Claims

/-! ### Bit `j` of digit `i` is bit `W*i + j` -/

section
variable {w n : Nat}

theorem exists_digit_bit {k : Nat} (hk : k < n * w) : ∃ i j, i < n ∧ j < w ∧ k = w * i + j :=
  ⟨k / w, k % w, Nat.div_lt_of_lt_mul (Nat.mul_comm n w ▸ hk),
    Nat.mod_lt k (Nat.pos_of_lt_mul_left hk), (Nat.div_add_mod k w).symm⟩

theorem digit_bit_lt_iff {i j : Nat} (hj : j < w) : w * i + j < n * w ↔ i < n := by
  rw [Nat.mul_comm n w]
  constructor
  · intro h
    exact Nat.lt_of_mul_lt_mul_left (Nat.lt_of_le_of_lt (Nat.le_add_right _ j) h)
  · intro h
    have hle : w * (i + 1) ≤ w * n := Nat.mul_le_mul_left w h
    rw [Nat.mul_succ] at hle
    omega

theorem getLsbD_digitAt (a : Value w n) (i : Nat) {j : Nat} (hj : j < w) :
    (digitAt a i).getLsbD j = a.val.testBit (w * i + j) := by
  rw [digitAt_eq_ofNat_val, BitVec.getLsbD_ofNat, Nat.testBit_shiftRight, decide_eq_true hj, Bool.true_and]

theorem testBit_valueOfFn (f : Nat → BitVec w) {i j : Nat} (hi : i < n) (hj : j < w) :
    (valueOfFn n f).val.testBit (w * i + j) = (f i).getLsbD j := by
  rw [← getLsbD_digitAt _ _ hj, digitAt_valueOfFn, if_pos hi]

theorem testBit_val_of_ge (a : Value w n) {k : Nat} (hk : n * w ≤ k) : a.val.testBit k = false :=
  Nat.testBit_lt_two_pow ((val_lt a).trans_le (Nat.pow_le_pow_right two_pos hk))

/-- Two values with the same bits below `BITS` are equal. -/
theorem value_ext_testBit {a b : Value w n} (h : ∀ k, k < n * w → a.val.testBit k = b.val.testBit k) : a = b := by
  refine val_inj.1 (Nat.eq_of_testBit_eq fun k => ?_)
  obtain hk | hk := Nat.lt_or_ge k (n * w)
  · exact h k hk
  · rw [testBit_val_of_ge a hk, testBit_val_of_ge b hk]

/-- `dig` has the bits of its number. -/
theorem testBit_dig {k : Nat} (hk : k < n * w) (v : Nat) : (dig w n v).val.testBit k = v.testBit k := by
  simp [Nat.testBit_mod_two_pow, hk]

/-! ### The sub-digit shift and its carry (R160) -/

/-- A digit shifted up: the low bits are the carry out of the digit below. -/
theorem getLsbD_shiftUp {b j : Nat} (hb : b < w) (hj : j < w) (d carry : BitVec w) :
    (if b = 0 then d else (d <<< b) ||| (carry >>> (w - b))).getLsbD j =
      if b ≤ j then d.getLsbD (j - b) else carry.getLsbD (w - b + j) := by
  obtain rfl | hb0 := Nat.eq_zero_or_pos b
  · simp
  · rw [if_neg hb0.ne', BitVec.getLsbD_or, BitVec.getLsbD_shiftLeft, BitVec.getLsbD_ushiftRight]
    obtain hle | hlt := Nat.lt_or_ge j b
    · simp [hle, Nat.not_le.2 hle]
    · rw [BitVec.getLsbD_of_ge carry _ (by omega)]
      simp [hlt, hj]

/-- A digit shifted down: the high bits are the carry out of the digit above. -/
theorem getLsbD_shiftDown {b j : Nat} (hb : b < w) (hj : j < w) (d carry : BitVec w) :
    (if b = 0 then d else (d >>> b) ||| (carry <<< (w - b))).getLsbD j =
      if b + j < w then d.getLsbD (b + j) else carry.getLsbD (j - (w - b)) := by
  obtain rfl | hb0 := Nat.eq_zero_or_pos b
  · simp [hj]
  · rw [if_neg hb0.ne', BitVec.getLsbD_or, BitVec.getLsbD_shiftLeft, BitVec.getLsbD_ushiftRight]
    obtain hlt | hge := Nat.lt_or_ge (b + j) w
    · simp [hlt, show j < w - b by omega]
    · rw [BitVec.getLsbD_of_ge d _ hge]
      simp [hj, Nat.not_lt.2 hge, show ¬ j < w - b by omega]

/-! ### Shifts (R161, R162) -/

/-- A digit moved up by `m` digits, with zeros below. -/
theorem getLsbD_digit_or_zero (a : Value w n) (i m : Nat) {j : Nat} (hj : j < w) :
    (if m ≤ i then digitAt a (i - m) else 0).getLsbD j =
      (decide (w * m ≤ w * i + j) && a.val.testBit (w * i + j - w * m)) := by
  obtain hlt | hge := Nat.lt_or_ge i m
  · have hle : w * (i + 1) ≤ w * m := Nat.mul_le_mul_left w hlt
    rw [Nat.mul_succ] at hle
    rw [if_neg (Nat.not_le.2 hlt), decide_eq_false (by omega)]
    simp
  · obtain ⟨d, rfl⟩ := Nat.exists_eq_add_of_le hge
    rw [if_pos hge, Nat.add_sub_cancel_left, getLsbD_digitAt a d hj, Nat.mul_add, Nat.add_assoc,
      Nat.add_sub_cancel_left, decide_eq_true (Nat.le_add_right _ _), Bool.true_and]

/-- A digit, with copies of the fill bit above the top. -/
theorem getLsbD_digit_or_fill (a : Value w n) (i : Nat) (fill : Bool) {j : Nat} (hj : j < w) :
    (if i < n then digitAt a i else if fill then BitVec.allOnes w else 0).getLsbD j =
      if w * i + j < n * w then a.val.testBit (w * i + j) else fill := by
  simp only [digit_bit_lt_iff hj]
  split
  · exact getLsbD_digitAt a i hj
  · cases fill <;> simp [hj]

/-- The left shift moves every bit up by `e`. -/
theorem testBit_shlN (a : Value w n) (e : Nat) {k : Nat} (hk : k < n * w) :
    (shlN a e).val.testBit k = (decide (e ≤ k) && a.val.testBit (k - e)) := by
  obtain ⟨i, j, hi, hj, rfl⟩ := exists_digit_bit hk
  have hb : e % w < w := Nat.mod_lt e (Nat.zero_lt_of_lt hj)
  have he := Nat.div_add_mod e w
  rw [shlN, testBit_valueOfFn _ hi hj, getLsbD_shiftUp hb hj]
  split
  · rw [getLsbD_digit_or_zero a i _ (by omega)]
    congr 2
    · exact propext (by omega)
    · omega
  · rw [Nat.sub_sub, getLsbD_digit_or_zero a i _ (by omega), Nat.mul_succ]
    congr 2
    · exact propext (by omega)
    · omega

/-- The right shift moves every bit down by `e` and fills from the top. -/
theorem testBit_shrN (a : Value w n) (e : Nat) (fill : Bool) {k : Nat} (hk : k < n * w) :
    (shrN a e fill).val.testBit k = if k + e < n * w then a.val.testBit (k + e) else fill := by
  obtain ⟨i, j, hi, hj, rfl⟩ := exists_digit_bit hk
  have hb : e % w < w := Nat.mod_lt e (Nat.zero_lt_of_lt hj)
  have he := Nat.div_add_mod e w
  rw [shrN, testBit_valueOfFn _ hi hj, getLsbD_shiftDown hb hj]
  split
  · rw [getLsbD_digit_or_fill a _ fill (by omega),
      show w * (i + e / w) + (e % w + j) = w * i + j + e by rw [Nat.mul_add]; omega]
  · rw [getLsbD_digit_or_fill a _ fill (by omega),
      show w * (i + e / w + 1) + (j - (w - e % w)) = w * i + j + e by rw [Nat.mul_succ, Nat.mul_add]; omega]

@[simp] theorem shlN_zero (a : Value w n) : shlN a 0 = a :=
  value_ext_testBit fun k hk => by simp [testBit_shlN a 0 hk]

@[simp] theorem shrN_zero (a : Value w n) (fill : Bool) : shrN a 0 fill = a :=
  value_ext_testBit fun k hk => by simp [testBit_shrN a 0 fill hk, hk]

/-- A right shift undoes a left shift by the same amount, but for the top `e` bits (R170). -/
theorem shrN_shlN (a : Value w n) (e : Nat) : shrN (shlN a e) e false = dig w n (a.val % 2 ^ (n * w - e)) :=
  value_ext_testBit fun k hk => by
    rw [testBit_shrN _ e false hk, testBit_dig hk, Nat.testBit_mod_two_pow]
    split
    · next h =>
      rw [testBit_shlN a e h, Nat.add_sub_cancel, decide_eq_true (Nat.le_add_left e k),
        decide_eq_true (Nat.lt_sub_of_add_lt h)]
    · rw [decide_eq_false (by omega), Bool.false_and]

/-- The left shift multiplies the number by `2^e`, modulo `2^BITS`. -/
theorem shlN_eq_dig (a : Value w n) (e : Nat) : shlN a e = dig w n (a.val * 2 ^ e) :=
  value_ext_testBit fun k hk => by rw [testBit_shlN a e hk, testBit_dig hk, Nat.testBit_mul_two_pow]

/-- The logical right shift divides the number by `2^e`. -/
theorem shrN_false_eq_dig (a : Value w n) (e : Nat) : shrN a e false = dig w n (a.val / 2 ^ e) :=
  value_ext_testBit fun k hk => by
    rw [testBit_shrN a e false hk, testBit_dig hk, Nat.testBit_div_two_pow]
    split
    · rfl
    · next h => exact (testBit_val_of_ge a (Nat.not_lt.1 h)).symm

theorem testBit_notN (a : Value w n) {k : Nat} (hk : k < n * w) : (notN a).val.testBit k = !a.val.testBit k := by
  obtain ⟨i, j, hi, hj, rfl⟩ := exists_digit_bit hk
  rw [notN, testBit_valueOfFn _ hi hj, BitVec.getLsbD_not, getLsbD_digitAt a i hj, decide_eq_true hj, Bool.true_and]

/-- Complementing the source and the fill bit complements a right shift. -/
theorem notN_shrN (a : Value w n) (e : Nat) (fill : Bool) : notN (shrN a e fill) = shrN (notN a) e (!fill) :=
  value_ext_testBit fun k hk => by
    rw [testBit_notN _ hk, testBit_shrN a e fill hk, testBit_shrN _ e _ hk]
    split
    · next h => rw [testBit_notN a h]
    · rfl

@[simp] theorem notN_notN (a : Value w n) : notN (notN a) = a :=
  value_ext_testBit fun k hk => by rw [testBit_notN _ hk, testBit_notN a hk, Bool.not_not]

/-- A negative value is `-1 - v`, where `v` is the number of its complement. -/
theorem sval_of_sign {a : Value w n} (h : sign a = true) : sval a = Int.negSucc (notN a).val := by
  have hnot : ((notN a).val + a.val + 1 : Int) = 2 ^ (n * w) := by exact_mod_cast val_notN a
  rw [sval, h, Bool.toNat_true, Int.negSucc_eq, Nat.cast_one, ← hnot]
  ring

theorem sval_of_not_sign {a : Value w n} (h : sign a = false) : sval a = a.val := by
  simp [sval, h]

/-- The residue of `-1 - v` is the complement of `v`. -/
theorem toNat_negSucc_emod {v m : Nat} (h : v < m) : (Int.negSucc v % (m : Int)).toNat = m - 1 - v := by
  rw [Int.negSucc_emod _ (by omega), Int.emod_eq_of_lt (by omega) (by omega)]
  omega

/-- The arithmetic right shift divides the signed number by `2^e`, rounding down: a negative value is the
complement of the logical shift of its complement. -/
theorem shrN_sign_eq_sdig (a : Value w n) (e : Nat) : shrN a e (sign a) = sdig w n (sval a / 2 ^ e) := by
  cases h : sign a with
  | false =>
    rw [sval_of_not_sign h, shrN_false_eq_dig, sdig, ← dig_mod]
    norm_cast
  | true =>
    have hlt : (notN a).val / 2 ^ e < 2 ^ (n * w) := (Nat.div_le_self _ _).trans_lt (val_lt _)
    have hdiv : sval a / 2 ^ e = Int.negSucc ((notN a).val / 2 ^ e) := by
      rw [sval_of_sign h, Int.negSucc_ediv _ (by positivity), Int.negSucc_eq]
      norm_cast
    rw [hdiv]
    calc shrN a e true = notN (shrN (notN a) e false) := by rw [notN_shrN, notN_notN, Bool.not_false]
      _ = notN (dig w n ((notN a).val / 2 ^ e)) := by rw [shrN_false_eq_dig]
      _ = dig w n (2 ^ (n * w) - 1 - (notN a).val / 2 ^ e) := notN_dig hlt
      _ = _ := by rw [← toNat_negSucc_emod hlt, Nat.cast_pow, Nat.cast_ofNat, sdig]

/-! ### Rotates (R167, R169) -/

/-- Taking the digit index modulo `N` takes the bit index modulo `BITS`. -/
theorem mul_mod_add_eq {i j : Nat} (hj : j < w) : w * (i % n) + j = (w * i + j) % (n * w) := by
  rw [Nat.mul_comm n, Nat.mod_mul, Nat.mul_add_mod, Nat.mod_eq_of_lt hj, Nat.mul_add_div (Nat.zero_lt_of_lt hj),
    Nat.div_eq_of_lt hj, Nat.add_zero, Nat.add_comm]

/-- The left rotate moves every bit up by `e`, modulo `BITS`. -/
theorem testBit_rotlN (a : Value w n) {e k : Nat} (he : e < n * w) (hk : k < n * w) :
    (rotlN a e).val.testBit k = a.val.testBit ((k + n * w - e) % (n * w)) := by
  obtain ⟨i, j, hi, hj, rfl⟩ := exists_digit_bit hk
  obtain ⟨m, b, hm, hb, rfl⟩ := exists_digit_bit he
  have hdiv : (w * m + b) / w = m := by rw [Nat.mul_add_div (Nat.zero_lt_of_lt hj), Nat.div_eq_of_lt hb, Nat.add_zero]
  have hmod : (w * m + b) % w = b := by rw [Nat.mul_add_mod, Nat.mod_eq_of_lt hb]
  have htop : w * m + w ≤ n * w := Nat.mul_succ w m ▸ Nat.mul_comm w n ▸ Nat.mul_le_mul_left w hm
  have hn : w * n = n * w := Nat.mul_comm w n
  rw [rotlN, testBit_valueOfFn _ hi hj, hdiv, hmod, getLsbD_shiftUp hb hj]
  split
  · have hpos : w * (i + n - m) + (j - b) = w * i + j + n * w - (w * m + b) := by
      rw [Nat.mul_sub, Nat.mul_add]
      omega
    rw [getLsbD_digitAt a _ (by omega), mul_mod_add_eq (by omega), hpos]
  · have hpos : w * (i + n + n - m - 1) + (w - b + j) = w * i + j + n * w - (w * m + b) + n * w := by
      rw [Nat.mul_sub, Nat.mul_sub, Nat.mul_add, Nat.mul_add]
      omega
    rw [getLsbD_digitAt a _ (by omega), mul_mod_add_eq (by omega), hpos, Nat.add_mod_right]

/-- The right rotate moves every bit down by `e`, modulo `BITS`. -/
theorem testBit_rotrN (a : Value w n) {e k : Nat} (he : e < n * w) (hk : k < n * w) :
    (rotrN a e).val.testBit k = a.val.testBit ((k + e) % (n * w)) := by
  rw [rotrN, testBit_rotlN a (Nat.mod_lt _ (Nat.zero_lt_of_lt hk)) hk]
  obtain rfl | he0 := Nat.eq_zero_or_pos e
  · simp
  · rw [Nat.mod_eq_of_lt (show n * w - e < n * w by omega), show k + n * w - (n * w - e) = k + e by omega]

theorem testBit_rotlN_add (a : Value w n) {e k : Nat} (he : e < n * w) (hk : k < n * w) :
    (rotlN a e).val.testBit ((k + e) % (n * w)) = a.val.testBit k := by
  rw [testBit_rotlN a he (Nat.mod_lt _ (Nat.zero_lt_of_lt hk)), Nat.add_sub_assoc he.le, Nat.mod_add_mod,
    show k + e + (n * w - e) = k + n * w by omega, Nat.add_mod_right, Nat.mod_eq_of_lt hk]

/-- A right rotate undoes a left rotate by the same amount (R170). -/
theorem rotrN_rotlN (a : Value w n) {e : Nat} (he : e < n * w) : rotrN (rotlN a e) e = a :=
  value_ext_testBit fun k hk => by rw [testBit_rotrN _ he hk, testBit_rotlN_add a he hk]

/-- A left rotate undoes a right rotate by the same amount (R170). -/
theorem rotlN_rotrN (a : Value w n) {e : Nat} (he : e < n * w) : rotlN (rotrN a e) e = a :=
  value_ext_testBit fun k hk => by
    rw [testBit_rotlN _ he hk, testBit_rotrN a he (Nat.mod_lt _ (Nat.zero_lt_of_lt hk)), Nat.mod_add_mod,
      Nat.sub_add_cancel (by omega), Nat.add_mod_right, Nat.mod_eq_of_lt hk]

end

/-! ### The four forms of an operation (R101 to R106) -/

/-- Delivery of a result under W, C, O and D is the four forms the statements speak of. -/
theorem fourForms_of_deliver {s : State} {rd : Reg} {x : Triple s.inst.w s.inst.n} {o : Prop} [Decidable o]
    {iW iC iO iD : Instr} (ho : x.overflow = decide o)
    (hW : exec iW s = .next (s.deliver .wrapping rd x)) (hC : exec iC s = .next (s.deliver .checked rd x))
    (hO : exec iO s = .next (s.deliver .overflowing rd x)) (hD : exec iD s = .next (s.deliver .panicking rd x)) :
    FourForms s rd x.wrapped o iW iC iO iD := by
  refine ⟨hW, fun h => ?_, fun h => ?_, ?_, fun hchecked h => ?_, fun h => ?_⟩
  · rw [hC, State.deliver, ho, decide_eq_true h]
    rfl
  · rw [hC, State.deliver, ho, decide_eq_false h]
    rfl
  · rw [hO, ← ho]
    rfl
  · rw [hD, State.deliver, ho, hchecked, decide_eq_true h, ← State.raise_eq_faulted]
    rfl
  · have hnone : (s.checked && x.overflow) = false := by
      obtain hrelease | h := h
      · rw [hrelease, Bool.false_and]
      · rw [ho, decide_eq_false h, Bool.and_false]
    rw [hD, State.deliver, hnone]
    rfl

section
variable {s : State} {rd : Reg} {x : Value s.inst.w s.inst.n} {o : Prop} [Decidable o] {iW iC iO iD : Instr}

/-- The overflowing form when nothing overflows. -/
theorem overflowing_of_fourForms (h : FourForms s rd x o iW iC iO iD) (ho : ¬o) :
    exec iO s = .next (wroteV s rd x (putOvf false s.flags)) := by
  obtain ⟨-, -, -, hO, -⟩ := h
  rw [hO, decide_eq_false ho]

/-- The three forms that report an overflow, when there is one. -/
theorem overflow_of_fourForms (h : FourForms s rd x o iW iC iO iD) (ho : o) :
    exec iC s = .next (wroteF s (putNone true s.flags)) ∧
    (∃ r, exec iO s = .next (wroteV s rd r (putOvf true s.flags))) ∧
    (s.checked = true → exec iD s = .next (faulted s .overflow)) := by
  obtain ⟨-, hC, -, hO, hD, -⟩ := h
  exact ⟨hC ho, ⟨x, by rw [hO, decide_eq_true ho]⟩, fun hchecked => hD hchecked ho⟩

end

/-! ### The amount of a plain shift (R163) -/

theorem reduceShift_eq_shiftAmount (i : Instance) (e : Nat) : reduceShift i e = shiftAmount i e := by
  rw [reduceShift, shiftAmount]
  cases i.shiftWrap <;> rfl

theorem bits_pos (i : Instance) : 0 < i.bits := Nat.mul_pos i.count_ok (w_pos i)

theorem shiftAmount_of_lt {i : Instance} {e : Nat} (h : e < i.bits) : shiftAmount i e = e := if_pos h

/-! ### Commands one after another -/

theorem State.reg_wroteV_self (s : State) (rd : Reg) (a : Value s.inst.w s.inst.n) (f : Word) :
    (wroteV s rd a f).reg rd = a :=
  s.reg_setReg_self rd a

/-- The second of two writes of a register is the one that stays. -/
theorem wroteV_wroteV_eq_leavesV (s : State) (rd : Reg) (a b : Value s.inst.w s.inst.n) :
    wroteV (wroteV s rd a s.flags) rd b s.flags = leavesV 2 s rd b := by
  have hv : (s.v.set rd a).set rd b = s.v.set rd b := Vector.set_set _ rd.isLt
  exact congrArg (fun v => { s with v := v, responses := okResponse _ :: okResponse _ :: s.responses }) hv

/-- Two commands that write the same register, the second with a function `f` of what it finds there. -/
theorem execList_pair_eq_leavesV {s : State} {i j : Instr} {rd : Reg} {x y : Value s.inst.w s.inst.n}
    (f : Value s.inst.w s.inst.n → Value s.inst.w s.inst.n) (hi : exec i s = .next (wroteV s rd x s.flags))
    (hj : exec j (wroteV s rd x s.flags) =
      .next (wroteV (wroteV s rd x s.flags) rd (f ((wroteV s rd x s.flags).reg rd)) s.flags))
    (hf : f x = y) : execList [i, j] s = .next (leavesV 2 s rd y) := by
  rw [State.reg_wroteV_self, hf, wroteV_wroteV_eq_leavesV] at hj
  simp only [execList, hi, hj]

/-! ### The commands -/

theorem fourForms_shl (s : State) (rd a xr : Reg) :
    FourForms s rd (shlN (s.reg a) (shiftAmount s.inst (eX s xr))) (s.inst.bits ≤ eX s xr)
      (.shlW rd a xr) (.shlC rd a xr) (.shlO rd a xr) (.shl rd a xr) := by
  rw [← reduceShift_eq_shiftAmount]
  exact fourForms_of_deliver (x := shlTriple s.inst (s.reg a) (s.expo xr)) rfl rfl rfl rfl rfl

theorem fourForms_shr (s : State) (rd a xr : Reg) :
    FourForms s rd (shrN (s.reg a) (shiftAmount s.inst (eX s xr)) false) (s.inst.bits ≤ eX s xr)
      (.shrW rd a xr) (.shrC rd a xr) (.shrO rd a xr) (.shr rd a xr) := by
  rw [← reduceShift_eq_shiftAmount]
  exact fourForms_of_deliver (x := shrTriple s.inst (s.reg a) (s.expo xr)) rfl rfl rfl rfl rfl

theorem fourForms_shrS (s : State) (rd a xr : Reg) :
    FourForms s rd (shrN (s.reg a) (shiftAmount s.inst (eX s xr)) (sign (s.reg a))) (s.inst.bits ≤ eX s xr)
      (.shrWS rd a xr) (.shrCS rd a xr) (.shrOS rd a xr) (.shrS rd a xr) := by
  rw [← reduceShift_eq_shiftAmount]
  exact fourForms_of_deliver (x := shrSignedTriple s.inst (s.reg a) (s.expo xr)) rfl rfl rfl rfl rfl

/-- `ROTL` writes the rotated value and no flag (R168). -/
theorem exec_rotl_eq_wroteV (s : State) (rd a xr : Reg) :
    exec (.rotl rd a xr) s = .next (wroteV s rd (rotlN (s.reg a) (eX s xr % s.inst.bits)) s.flags) := rfl

/-- `ROTR` writes the rotated value and no flag (R169). -/
theorem exec_rotr_eq_wroteV (s : State) (rd a xr : Reg) :
    exec (.rotr rd a xr) s = .next (wroteV s rd (rotrN (s.reg a) (eX s xr % s.inst.bits)) s.flags) := rfl

/-! ### The obligations -/

/-- Settles O32: the shifted value is the product modulo `2^BITS`. -/
theorem leftShift : Obligations.LeftShift := by
  intro s rd a xr
  rw [num, dig_mod, ← shlN_eq_dig]
  exact fourForms_shl s rd a xr

/-- Settles O33: the shifted value is the quotient under either reading. -/
theorem rightShifts : Obligations.RightShifts := by
  intro s rd a xr
  have hsigned : snum s (sA s a / 2 ^ shiftAmount s.inst (eX s xr)) =
      shrN (s.reg a) (shiftAmount s.inst (eX s xr)) (sign (s.reg a)) := by
    rw [shrN_sign_eq_sdig, snum, sdig, Nat.cast_pow, Nat.cast_ofNat]
  rw [num, dig_mod, ← shrN_false_eq_dig, hsigned]
  exact ⟨fourForms_shr s rd a xr, fourForms_shrS s rd a xr⟩

/-- Settles O34: the reduced amount moves the bits as the amount itself does. -/
theorem rotates : Obligations.Rotates := by
  intro s rd a xr
  have he : eX s xr % s.inst.bits < s.inst.bits := Nat.mod_lt _ (bits_pos s.inst)
  refine ⟨⟨_, exec_rotl_eq_wroteV s rd a xr, fun k hk => ?_⟩,
    ⟨_, exec_rotr_eq_wroteV s rd a xr, fun k hk => ?_⟩⟩
  · rw [← Nat.add_mod_mod, testBit_rotlN_add _ he hk]
  · rw [← Nat.add_mod_mod k, testBit_rotrN _ he hk]

/-- Settles O35: the laws of the datapath functions, under the delivery of each command. -/
theorem shiftAndRotateLaws : Obligations.ShiftAndRotateLaws := by
  intro s rd a xr
  have he : eX s xr % s.inst.bits < s.inst.bits := Nat.mod_lt _ (bits_pos s.inst)
  have hshl := fourForms_shl s rd a xr
  have hshr := fourForms_shr s rd a xr
  have hshrS := fourForms_shrS s rd a xr
  refine ⟨⟨?rotlRotr, ?rotrRotl⟩, fun hzero => ?zero, fun hge => ?overflow, fun hlt => ?undo⟩
  case rotlRotr =>
    exact execList_pair_eq_leavesV (rotrN · (eX s xr % s.inst.bits)) (exec_rotl_eq_wroteV s rd a xr)
      (exec_rotr_eq_wroteV _ rd rd xr) (rotrN_rotlN _ he)
  case rotrRotl =>
    exact execList_pair_eq_leavesV (rotlN · (eX s xr % s.inst.bits)) (exec_rotr_eq_wroteV s rd a xr)
      (exec_rotl_eq_wroteV _ rd rd xr) (rotlN_rotrN _ he)
  case zero =>
    have hlt : eX s xr < s.inst.bits := hzero ▸ bits_pos s.inst
    have hamount : shiftAmount s.inst (eX s xr) = 0 := (shiftAmount_of_lt hlt).trans hzero
    rw [hamount, shlN_zero] at hshl
    rw [hamount, shrN_zero] at hshr hshrS
    have hno : ¬s.inst.bits ≤ eX s xr := Nat.not_le.2 hlt
    exact ⟨overflowing_of_fourForms hshl hno, overflowing_of_fourForms hshr hno, overflowing_of_fourForms hshrS hno⟩
  case overflow =>
    obtain ⟨hshlC, hshlO, hshlD⟩ := overflow_of_fourForms hshl hge
    obtain ⟨hshrC, hshrO, hshrD⟩ := overflow_of_fourForms hshr hge
    obtain ⟨hshrCS, hshrOS, hshrDS⟩ := overflow_of_fourForms hshrS hge
    simp only [List.forall_mem_cons, List.not_mem_nil, false_implies, implies_true, and_true]
    exact ⟨⟨hshlC, hshrC, hshrCS⟩, ⟨hshlO, hshrO, hshrOS⟩, fun hchecked =>
      ⟨hshlD hchecked, hshrD hchecked, hshrDS hchecked⟩⟩
  case undo =>
    obtain ⟨hshlW, -⟩ := hshl
    obtain ⟨hshrW, -⟩ :=
      fourForms_shr (wroteV s rd (shlN (s.reg a) (shiftAmount s.inst (eX s xr))) s.flags) rd rd xr
    refine execList_pair_eq_leavesV (shrN · (shiftAmount s.inst (eX s xr)) false) hshlW hshrW ?_
    rw [shiftAmount_of_lt hlt, shrN_shlN, num, dig_mod]

end Sys2Proof.Machine

/-! Family `44_bit_count.md`: bit counts, reversal and complement. The digits' bits, one digit after another, are the
bits of the number a value stands for; each count is a count over that one list, and the counts of ones are the counts
of zeros of the complement. The reversals move every bit of the number to its mirrored place. -/

namespace Sys2Proof.Machine

open Sys2Proof.Claims

section
variable {w n : Nat}

/-! ### The bits of a value as one list -/

theorem digitBits_eq_map_testBit (d : BitVec w) : digitBits d = (List.range w).map d.toNat.testBit := rfl

@[simp] theorem length_digitBits (d : BitVec w) : (digitBits d).length = w := by simp [digitBits]

/-- The digits' bits, one digit after another, are the bits of the number. -/
theorem flatMap_digitBits (ds : List (BitVec w)) :
    ds.flatMap digitBits = (List.range (w * ds.length)).map (natOfDigits ds).testBit := by
  induction ds with
  | nil => simp
  | cons d ds ih =>
    rw [List.flatMap_cons, ih, digitBits_eq_map_testBit, List.length_cons, Nat.mul_succ, Nat.add_comm _ w,
      List.range_add, List.map_append, List.map_map, natOfDigits, Nat.add_comm d.toNat]
    congr 1
    · refine List.map_congr_left fun i hi => ?_
      rw [Nat.testBit_two_pow_mul_add _ d.isLt, if_pos (List.mem_range.1 hi)]
    · refine List.map_congr_left fun i _ => ?_
      rw [Function.comp_apply, Nat.testBit_two_pow_mul_add _ d.isLt, if_neg (Nat.not_lt.2 (Nat.le_add_right w i)),
        Nat.add_sub_cancel_left]

theorem flatMap_digitBits_value (a : Value w n) :
    a.digits.flatMap digitBits = (List.range (n * w)).map a.val.testBit := by
  rw [flatMap_digitBits, a.length_digits, Nat.mul_comm, Value.val]

/-! ### Trailing zeros (R181) -/

/-- A run is at least `j` long exactly when the first `j` bits are there and belong to it. -/
theorem le_runOf_iff (b : Bool) (bits : List Bool) (j : Nat) :
    j ≤ runOf b bits ↔ ∀ i, i < j → bits[i]? = some b := by
  induction bits generalizing j with
  | nil =>
    cases j with
    | zero => simp
    | succ j => exact iff_of_false (Nat.not_succ_le_zero j) fun h => nomatch h 0 j.succ_pos
  | cons c bits ih =>
    cases j with
    | zero => simp
    | succ j =>
      rw [Nat.forall_lt_succ_left, List.getElem?_cons_zero, Option.some_inj]
      simp only [List.getElem?_cons_succ, ← ih]
      by_cases hc : c = b <;> simp [runOf, hc]

theorem runOf_le_length (b : Bool) (bits : List Bool) : runOf b bits ≤ bits.length :=
  (List.takeWhile_sublist _).length_le

theorem runOf_eq_length_iff (b : Bool) (bits : List Bool) : runOf b bits = bits.length ↔ ∀ c ∈ bits, c = b := by
  rw [runOf, (List.takeWhile_sublist _).length_eq, List.takeWhile_eq_self_iff]
  simp

/-- A run goes on into a second list exactly when it takes all of the first. -/
theorem runOf_append (b : Bool) (bits more : List Bool) :
    runOf b (bits ++ more) = if runOf b bits = bits.length then bits.length + runOf b more else runOf b bits := by
  rw [runOf, List.takeWhile_append, runOf, apply_ite List.length, List.length_append, runOf]

/-- All bits of a digit are 0 exactly when it is 0. -/
theorem ctzDigit_eq_width_iff (d : BitVec w) : ctzDigit d = w ↔ d = 0 := by
  have h := runOf_eq_length_iff false (digitBits d)
  rw [length_digitBits] at h
  rw [ctzDigit, h, BitVec.eq_of_getLsbD_eq_iff]
  simp [digitBits]

/-- The scan of trailing zeros is one run over the bits of all digits. -/
theorem countScan_ctz_eq_runOf (ds : List (BitVec w)) :
    countScan 0 ctzDigit ds = runOf false (ds.flatMap digitBits) := by
  induction ds with
  | nil => rfl
  | cons d ds ih =>
    have hfull : runOf false (digitBits d) = w ↔ d = 0 := ctzDigit_eq_width_iff d
    rw [countScan, List.flatMap_cons, runOf_append, length_digitBits, ih]
    simp only [hfull, ctzDigit]

theorem ctzN_eq_runOf (a : Value w n) : ctzN a = runOf false ((List.range (n * w)).map a.val.testBit) := by
  rw [ctzN, countScan_ctz_eq_runOf, flatMap_digitBits_value]

theorem ctzN_le (a : Value w n) : ctzN a ≤ n * w := by
  have h := runOf_le_length false ((List.range (n * w)).map a.val.testBit)
  rwa [← ctzN_eq_runOf, List.length_map, List.length_range] at h

/-- `2^j` divides a number exactly when its low `j` bits are 0. -/
theorem two_pow_dvd_iff_testBit (j v : Nat) : 2 ^ j ∣ v ↔ ∀ i, i < j → v.testBit i = false := by
  rw [Nat.dvd_iff_mod_eq_zero]
  constructor
  · intro h i hi
    have hbit := Nat.testBit_mod_two_pow v j i
    rwa [h, Nat.zero_testBit, decide_eq_true hi, Bool.true_and, eq_comm] at hbit
  · intro h
    refine Nat.zero_of_testBit_eq_false fun i => ?_
    rw [Nat.testBit_mod_two_pow]
    by_cases hi : i < j <;> simp [hi, h]

/-- `CtzN` is the greatest `j` up to `BITS` such that `2^j` divides the number (R181). -/
theorem le_ctzN_iff (a : Value w n) {j : Nat} (hj : j ≤ n * w) : j ≤ ctzN a ↔ 2 ^ j ∣ a.val := by
  rw [ctzN_eq_runOf, le_runOf_iff, two_pow_dvd_iff_testBit]
  refine forall₂_congr fun i hi => ?_
  rw [List.getElem?_map, List.getElem?_range (hi.trans_le hj), Option.map_some, Option.some_inj]

theorem ctzN_eq_bits_iff (a : Value w n) : ctzN a = n * w ↔ a = zeroV w n := by
  rw [← (ctzN_le a).ge_iff_eq, le_ctzN_iff a le_rfl, ← val_inj, val_zeroV]
  exact ⟨fun h => Nat.eq_zero_of_dvd_of_lt h (val_lt a), fun h => h ▸ Nat.dvd_zero _⟩

/-! ### Leading zeros (R180) -/

theorem clzN_le (a : Value w n) : clzN a ≤ n * w := clzN_add_size a ▸ Nat.le_add_right _ _

/-- `ClzN` is `BITS` less the bit length, so at least `j` exactly when the number fits the rest (R180). -/
theorem le_clzN_iff (a : Value w n) {j : Nat} (hj : j ≤ n * w) : j ≤ clzN a ↔ a.val < 2 ^ (n * w - j) := by
  have hsize := clzN_add_size a
  rw [← Nat.size_le]
  omega

theorem clzN_add_bitLenN (a : Value w n) : clzN a + bitLenN a = n * w := Nat.add_sub_cancel' (clzN_le a)

theorem clzN_eq_bits_iff (a : Value w n) : clzN a = n * w ↔ a = zeroV w n := by
  rw [← val_inj, val_zeroV, ← Nat.size_eq_zero, ← clzN_add_size a, Nat.left_eq_add]

/-! ### Counts of ones (R184, R185) -/

/-- A scan over digits of all ones is the scan over zero digits of the complemented digits. -/
theorem countScan_allOnes (part : BitVec w → Nat) (ds : List (BitVec w)) :
    countScan (BitVec.allOnes w) (fun d => part (~~~d)) ds = countScan 0 part (ds.map (~~~ ·)) := by
  induction ds with
  | nil => rfl
  | cons d ds ih =>
    have hfull : ~~~d = 0 ↔ d = BitVec.allOnes w := by rw [BitVec.not_eq_comm]; simp
    rw [List.map_cons, countScan, countScan, ih]
    simp only [hfull]

/-- The leading ones are the leading zeros of the complement (R184). -/
theorem cloN_eq_clzN_notN (a : Value w n) : cloN a = clzN (notN a) := by
  rw [clzN, digits_notN, ← List.map_reverse]
  exact countScan_allOnes clzDigit a.digits.reverse

/-- The trailing ones are the trailing zeros of the complement (R185). -/
theorem ctoN_eq_ctzN_notN (a : Value w n) : ctoN a = ctzN (notN a) := by
  rw [ctzN, digits_notN]
  exact countScan_allOnes ctzDigit a.digits

theorem val_notN_eq (a : Value w n) : (notN a).val = 2 ^ (n * w) - 1 - a.val := by
  have h := val_notN a
  omega

theorem notN_eq_dig (a : Value w n) : notN a = dig w n (2 ^ (n * w) - 1 - a.val) := by rw [← val_notN_eq, dig_val]

/-- The top bit is 0 or it is 1, so only one of the two leading counts can be nonzero (R189). -/
theorem clzN_eq_zero_or_clzN_notN_eq_zero (hbits : 0 < n * w) (a : Value w n) : clzN a = 0 ∨ clzN (notN a) = 0 := by
  by_contra h
  obtain ⟨hlz, hlo⟩ := not_or.1 h
  have ha := (le_clzN_iff a (j := 1) hbits).1 (Nat.pos_of_ne_zero hlz)
  have hnot := (le_clzN_iff (notN a) (j := 1) hbits).1 (Nat.pos_of_ne_zero hlo)
  have hsum := val_notN a
  rw [← Nat.two_pow_pred_add_two_pow_pred hbits] at hsum
  omega

/-! ### Population counts (R186) -/

/-- `Cnt1N` counts the 1 bits of the number (R186). -/
theorem cnt1N_eq_countP (a : Value w n) : cnt1N a = (List.range (n * w)).countP fun k => a.val.testBit k := by
  calc cnt1N a = (a.digits.flatMap digitBits).count true := List.count_flatMap.symm
    _ = ((List.range (n * w)).map a.val.testBit).count true := by rw [flatMap_digitBits_value]
    _ = _ := by rw [List.count_eq_countP, List.countP_map]; simp [Function.comp_def]

/-- Every bit of the number is 1 or 0. -/
theorem cnt1N_add_countP_not (a : Value w n) :
    cnt1N a + (List.range (n * w)).countP (fun k => !a.val.testBit k) = n * w := by
  have h := List.length_eq_countP_add_countP (fun k => a.val.testBit k) (l := List.range (n * w))
  rw [cnt1N_eq_countP]
  simpa using h.symm

theorem cnt1N_le (a : Value w n) : cnt1N a ≤ n * w := (Nat.le_add_right _ _).trans_eq (cnt1N_add_countP_not a)

/-- What the count of ones leaves of `BITS` is the count of zeros (R188). -/
theorem bits_sub_cnt1N_eq_countP_not (a : Value w n) :
    n * w - cnt1N a = (List.range (n * w)).countP fun k => !a.val.testBit k :=
  Nat.sub_eq_of_eq_add' (cnt1N_add_countP_not a).symm

/-! ### Reversals (R192, R193) -/

/-- The number built from a list of bits has those bits. -/
theorem testBit_natOfBits (bits : List Bool) (k : Nat) : (natOfBits bits).testBit k = bits.getD k false := by
  induction bits generalizing k with
  | nil => simp [natOfBits]
  | cons b bits ih =>
    have hbit : natOfBits (b :: bits) = Nat.bit b (natOfBits bits) := by
      rw [natOfBits, Nat.bit_val, Nat.add_comm]
    rw [hbit]
    cases k with
    | zero => rw [Nat.testBit_bit_zero, List.getD_cons_zero]
    | succ k => rw [Nat.testBit_bit_succ, ih, List.getD_cons_succ]

theorem getLsbD_brevDigit (d : BitVec w) {j : Nat} (hj : j < w) :
    (brevDigit d).getLsbD j = d.getLsbD (w - 1 - j) := by
  rw [brevDigit, BitVec.getLsbD_ofNat, testBit_natOfBits]
  simp [hj, digitBits, List.getD_eq_getElem?_getD]

theorem getLsbD_bswapDigit (d : BitVec w) {j : Nat} (hj : j < w) :
    (bswapDigit d).getLsbD j = d.getLsbD (8 * (w / 8 - 1 - j / 8) + j % 8) := by
  rw [bswapDigit, BitVec.getLsbD_ofNat, testBit_natOfBits]
  simp [hj, List.getD_eq_getElem?_getD]

/-- `REVB` moves every bit to its mirrored place (R193). -/
theorem testBit_reverseBitsN (a : Value w n) {k : Nat} (hk : k < n * w) :
    (reverseBitsN a).val.testBit k = a.val.testBit (n * w - 1 - k) := by
  obtain ⟨i, j, hi, hj, rfl⟩ := exists_digit_bit hk
  obtain ⟨m, rfl⟩ := Nat.exists_eq_add_of_lt hi
  have hplace : w * (i + m + 1 - 1 - i) + (w - 1 - j) = (i + m + 1) * w - 1 - (w * i + j) := by
    rw [show i + m + 1 - 1 - i = m by omega, show (i + m + 1) * w = w * i + w * m + w by ring]
    omega
  rw [reverseBitsN, testBit_valueOfFn _ hi hj, getLsbD_brevDigit _ hj, getLsbD_digitAt _ _ (by omega), hplace]

/-- `SWAPB` moves bit `b` of byte `q` to bit `b` of the mirrored byte (R192). -/
theorem testBit_swapBytesN (hw : 8 ∣ w) (a : Value w n) {q b : Nat} (hq : q < n * w / 8) (hb : b < 8) :
    (swapBytesN a).val.testBit (8 * q + b) = a.val.testBit (8 * (n * w / 8 - 1 - q) + b) := by
  have hk : 8 * q + b < n * w := by omega
  obtain ⟨i, j, hi, hj, hij⟩ := exists_digit_bit hk
  obtain ⟨m, rfl⟩ := Nat.exists_eq_add_of_lt hi
  obtain ⟨c, rfl⟩ := hw
  have hplace : 8 * c * (i + m + 1 - 1 - i) + (8 * (8 * c / 8 - 1 - j / 8) + j % 8) =
      8 * ((i + m + 1) * (8 * c) / 8 - 1 - q) + b := by
    rw [show i + m + 1 - 1 - i = m by omega,
      show (i + m + 1) * (8 * c) = 8 * (c * i) + 8 * (c * m) + 8 * c by ring, Nat.mul_assoc]
    rw [Nat.mul_assoc] at hij
    omega
  rw [hij, swapBytesN, testBit_valueOfFn _ hi hj, getLsbD_bswapDigit _ hj, getLsbD_digitAt _ _ (by omega), hplace]

/-- Equal bits make equal bytes. -/
theorem byte_eq_of_testBit {x y p q : Nat} (h : ∀ b, b < 8 → x.testBit (8 * p + b) = y.testBit (8 * q + b)) :
    x / 2 ^ (8 * p) % 256 = y / 2 ^ (8 * q) % 256 := by
  refine Nat.eq_of_testBit_eq fun b => ?_
  rw [show 256 = 2 ^ 8 by rfl, Nat.testBit_mod_two_pow, Nat.testBit_mod_two_pow, Nat.testBit_div_two_pow,
    Nat.testBit_div_two_pow, Nat.add_comm b, Nat.add_comm b]
  by_cases hb : b < 8
  · rw [h b hb]
  · simp [hb]

end

/-! ### The commands -/

theorem exec_clz_eq_wroteX (s : State) (xr a : Reg) :
    exec (.clz xr a) s = .next (wroteX s xr (BitVec.ofNat 32 (clzN (s.reg a))) s.flags) := rfl

theorem exec_ctz_eq_wroteX (s : State) (xr a : Reg) :
    exec (.ctz xr a) s = .next (wroteX s xr (BitVec.ofNat 32 (ctzN (s.reg a))) s.flags) := rfl

theorem exec_clo_eq_wroteX (s : State) (xr a : Reg) :
    exec (.clo xr a) s = .next (wroteX s xr (BitVec.ofNat 32 (clzN (notN (s.reg a)))) s.flags) := by
  rw [← cloN_eq_clzN_notN]
  rfl

theorem exec_cto_eq_wroteX (s : State) (xr a : Reg) :
    exec (.cto xr a) s = .next (wroteX s xr (BitVec.ofNat 32 (ctzN (notN (s.reg a)))) s.flags) := by
  rw [← ctoN_eq_ctzN_notN]
  rfl

theorem exec_cnt1_eq_wroteX (s : State) (xr a : Reg) :
    exec (.cnt1 xr a) s = .next (wroteX s xr (BitVec.ofNat 32 (cnt1N (s.reg a))) s.flags) := rfl

theorem exec_cnt0_eq_wroteX (s : State) (xr a : Reg) :
    exec (.cnt0 xr a) s = .next (wroteX s xr (BitVec.ofNat 32 (s.inst.bits - cnt1N (s.reg a))) s.flags) := rfl

theorem exec_blen_eq_wroteX (s : State) (xr a : Reg) :
    exec (.blen xr a) s = .next (wroteX s xr (BitVec.ofNat 32 (bitLenN (s.reg a))) s.flags) := rfl

theorem exec_not_eq_wroteV (s : State) (rd a : Reg) :
    exec (.not rd a) s = .next (wroteV s rd (notN (s.reg a)) s.flags) := rfl

/-- A digit is a whole number of bytes (R5). -/
theorem eight_dvd_w (i : Instance) : 8 ∣ i.w := Nat.pow_dvd_pow 2 i.width_ok

/-! ### The obligations -/

/-- Settles O36: each scan ends where the number's own bits end its run, those of the complement for the ones. -/
theorem leadingAndTrailingCounts : Obligations.LeadingAndTrailingCounts := by
  intro s xr a
  have hnot : (notN (s.reg a)).val = mN s - 1 - uA s a := val_notN_eq _
  refine ⟨_, _, _, _, exec_clz_eq_wroteX s xr a, exec_ctz_eq_wroteX s xr a, exec_clo_eq_wroteX s xr a,
    exec_cto_eq_wroteX s xr a, clzN_le _, ctzN_le _, clzN_le _, ctzN_le _, ?_⟩
  rw [← hnot]
  exact ⟨fun _ => le_clzN_iff _, fun _ => le_ctzN_iff _, fun _ => le_clzN_iff _, fun _ => le_ctzN_iff _⟩

/-- Settles O37: `CNT1` counts the number's 1 bits, and `CNT0` what is left of `BITS`. -/
theorem populationCounts : Obligations.PopulationCounts := by
  intro s xr a
  exact ⟨by rw [exec_cnt1_eq_wroteX, cnt1N_eq_countP],
    by rw [exec_cnt0_eq_wroteX, bits_sub_cnt1N_eq_countP_not]⟩

/-- Settles O38: the identities of the datapath counts, all of them at most `BITS`, which fits a word. -/
theorem countIdentities : Obligations.CountIdentities := by
  intro s xr rd a
  have hfits : ∀ {c : Nat}, c ≤ s.inst.bits → c < 2 ^ 32 := fun hc => hc.trans_lt s.inst.bits_ok
  have hreg := s.reg_wroteV_self rd (notN (s.reg a)) s.flags
  have hclz : clzN ((wroteV s rd (notN (s.reg a)) s.flags).reg rd) = clzN (notN (s.reg a)) := congrArg clzN hreg
  have hctz : ctzN ((wroteV s rd (notN (s.reg a)) s.flags).reg rd) = ctzN (notN (s.reg a)) := congrArg ctzN hreg
  refine ⟨cnt1N (s.reg a), s.inst.bits - cnt1N (s.reg a), clzN (s.reg a), bitLenN (s.reg a), ctzN (s.reg a),
    clzN (notN (s.reg a)), ctzN (notN (s.reg a)), _, ?counts, Nat.add_sub_cancel' (cnt1N_le _), clzN_add_bitLenN _,
    exec_not_eq_wroteV s rd a, ?clo, ?cto, clzN_eq_bits_iff _, ctzN_eq_bits_iff _,
    clzN_eq_zero_or_clzN_notN_eq_zero (bits_pos s.inst) _⟩
  case counts =>
    simp only [List.forall_mem_cons, List.not_mem_nil, false_implies, implies_true, and_true]
    exact ⟨⟨exec_cnt1_eq_wroteX s xr a, hfits (cnt1N_le _)⟩,
      ⟨exec_cnt0_eq_wroteX s xr a, hfits (Nat.sub_le _ _)⟩,
      ⟨exec_clz_eq_wroteX s xr a, hfits (clzN_le _)⟩,
      ⟨exec_blen_eq_wroteX s xr a, hfits (Nat.sub_le _ _)⟩,
      ⟨exec_ctz_eq_wroteX s xr a, hfits (ctzN_le _)⟩,
      ⟨exec_clo_eq_wroteX s xr a, hfits (clzN_le _)⟩,
      ⟨exec_cto_eq_wroteX s xr a, hfits (ctzN_le _)⟩⟩
  case clo => rw [exec_clz_eq_wroteX, hclz]
  case cto => rw [exec_ctz_eq_wroteX, hctz]

/-- Settles O39: the reversals mirror the number's bytes and bits, and the complement is what is left of `UMAX`. -/
theorem reversalAndComplement : Obligations.ReversalAndComplement := by
  intro s rd a
  refine ⟨⟨swapBytesN (s.reg a), rfl, fun k hk => ?bytes⟩,
    ⟨reverseBitsN (s.reg a), rfl, fun k hk => testBit_reverseBitsN _ hk⟩, ?complement⟩
  case bytes => exact byte_eq_of_testBit fun b hb => testBit_swapBytesN (eight_dvd_w s.inst) _ hk hb
  case complement =>
    rw [exec_not_eq_wroteV, notN_eq_dig, num, dig_mod]

end Sys2Proof.Machine

/-! Family `45_add_sub.md`: addition and subtraction. The chains wrap the mathematical result, and their carry and
borrow tell when it does not fit; an integer at most `2^BITS` away from zero that is wrapped keeps its sign exactly
when it is in the signed range. Delivery under the five variants is said once, for both commands and both readings. -/

namespace Sys2Proof.Machine

open Sys2Proof.Claims

section
variable {w n : Nat}

/-! ### The named values as numbers (R13) -/

theorem umaxV_eq_notN_zeroV : umaxV w n = notN (zeroV w n) :=
  value_ext fun i hi => by simp [umaxV, notN, zeroV, hi]

/-- `UMAX` stands for `2^BITS - 1`. -/
theorem umaxV_eq_dig : umaxV w n = dig w n (2 ^ (n * w) - 1) := by
  rw [umaxV_eq_notN_zeroV, notN_eq_dig, val_zeroV, Nat.sub_zero]

theorem zeroV_eq_dig : zeroV w n = dig w n 0 := by
  rw [eq_dig_iff, val_zeroV, Nat.zero_mod]

/-- The top bit of the top digit is bit `BITS-1`. -/
theorem mul_pred_add_pred (hw : 0 < w) (hn : 0 < n) : w * (n - 1) + (w - 1) = n * w - 1 := by
  obtain ⟨m, rfl⟩ := Nat.exists_eq_succ_of_ne_zero hn.ne'
  rw [Nat.succ_mul, Nat.mul_comm m w, Nat.succ_sub_one]
  omega

/-- Bit `j` of digit `i` is the top bit exactly when both are the last ones. -/
theorem mul_add_eq_top_iff (hw : 0 < w) (hn : 0 < n) {i j : Nat} (hj : j < w) :
    w * i + j = n * w - 1 ↔ i = n - 1 ∧ j = w - 1 := by
  rw [← mul_pred_add_pred hw hn]
  constructor
  · intro h
    have hdiv := congrArg (· / w) h
    simp only [Nat.mul_add_div hw, Nat.div_eq_of_lt hj, Nat.div_eq_of_lt (Nat.sub_lt hw one_pos), Nat.add_zero] at hdiv
    subst hdiv
    exact ⟨rfl, Nat.add_left_cancel h⟩
  · rintro ⟨rfl, rfl⟩
    rfl

/-- `SMIN` is the pattern with the top bit alone. -/
theorem sminV_eq_dig (hw : 0 < w) (hn : 0 < n) : sminV w n = dig w n (2 ^ (n * w - 1)) :=
  value_ext_testBit fun k hk => by
    obtain ⟨i, j, hi, hj, rfl⟩ := exists_digit_bit hk
    rw [sminV, testBit_valueOfFn _ hi hj, testBit_dig hk, Nat.testBit_two_pow]
    simp only [eq_comm (a := n * w - 1), mul_add_eq_top_iff hw hn hj]
    split
    · next htop =>
      rw [BitVec.getLsbD_ofNat, Nat.testBit_two_pow]
      simp [hj, htop, eq_comm]
    · next htop => simp [htop]

/-- A digit of `SMAX` is the complement of that of `SMIN`. -/
theorem smaxV_eq_notN_sminV (hw : 0 < w) : smaxV w n = notN (sminV w n) :=
  value_ext fun i hi => by
    have hlt : 2 ^ (w - 1) < 2 ^ w := Nat.pow_lt_pow_right one_lt_two (Nat.sub_lt hw one_pos)
    have hhalf := Nat.two_pow_pred_add_two_pow_pred hw
    have htop : BitVec.ofNat w (2 ^ (w - 1) - 1) = ~~~BitVec.ofNat w (2 ^ (w - 1)) := by
      apply BitVec.eq_of_toNat_eq
      rw [BitVec.toNat_not, BitVec.toNat_ofNat, BitVec.toNat_ofNat, Nat.mod_eq_of_lt (by omega), Nat.mod_eq_of_lt hlt]
      omega
    simp only [smaxV, notN, sminV, digitAt_valueOfFn, hi, if_true]
    split
    · exact htop
    · simp

/-- `SMAX` stands for `2^(BITS-1) - 1`. -/
theorem smaxV_eq_dig (hw : 0 < w) (hn : 0 < n) : smaxV w n = dig w n (2 ^ (n * w - 1) - 1) := by
  have hbits := Nat.mul_pos hn hw
  have hhalf := Nat.two_pow_pred_add_two_pow_pred hbits
  have hlt : 2 ^ (n * w - 1) < 2 ^ (n * w) := Nat.pow_lt_pow_right one_lt_two (Nat.sub_lt hbits one_pos)
  rw [smaxV_eq_notN_sminV hw, sminV_eq_dig hw hn, notN_dig hlt]
  congr 1
  omega

/-! ### Integers wrapped into `BITS` bits -/

/-- The number of a wrapped integer is its residue. -/
theorem val_sdig (v : Int) : ((sdig w n v).val : Int) = v % 2 ^ (n * w) := by
  have hpos : (0 : Int) < 2 ^ (n * w) := by positivity
  have hnonneg : 0 ≤ v % 2 ^ (n * w) := Int.emod_nonneg v hpos.ne'
  rw [sdig, val_dig, Int.natCast_mod, Int.toNat_of_nonneg hnonneg, Nat.cast_pow, Nat.cast_ofNat, Int.emod_emod]

/-- A value is the wrapped integer exactly when its number is a residue of it. -/
theorem eq_sdig_iff (a : Value w n) (v : Int) : a = sdig w n v ↔ (a.val : Int) ≡ v [ZMOD 2 ^ (n * w)] := by
  have hlt : (a.val : Int) < 2 ^ (n * w) := by exact_mod_cast val_lt a
  rw [← val_inj, ← Nat.cast_inj (R := Int), val_sdig, Int.ModEq, Int.emod_eq_of_lt (Int.natCast_nonneg _) hlt]

theorem sdig_congr {u v : Int} (h : u ≡ v [ZMOD 2 ^ (n * w)]) : sdig w n u = sdig w n v := by
  rw [sdig, sdig, h]

theorem sdig_natCast (v : Nat) : sdig w n v = dig w n v := by
  rw [sdig, ← dig_mod w n v]
  norm_cast

/-- The signed reading differs from the number by a multiple of `2^BITS` (R12). -/
theorem sval_modEq_val (a : Value w n) : sval a ≡ a.val [ZMOD 2 ^ (n * w)] :=
  Int.modEq_iff_dvd.2 ⟨(sign a).toNat, by rw [sval]; ring⟩

theorem sdig_neg_half (hw : 0 < w) (hn : 0 < n) : sdig w n (-(2 ^ (n * w - 1) : Nat)) = sminV w n := by
  have hhalf := Nat.two_pow_pred_add_two_pow_pred (Nat.mul_pos hn hw)
  rw [sminV_eq_dig hw hn, ← sdig_natCast]
  refine sdig_congr (Int.modEq_iff_dvd.2 ⟨1, ?_⟩)
  rw [mul_one, sub_neg_eq_add]
  exact_mod_cast hhalf

theorem sdig_half_sub_one (hw : 0 < w) (hn : 0 < n) : sdig w n ((2 ^ (n * w - 1) : Nat) - 1) = smaxV w n := by
  rw [smaxV_eq_dig hw hn, ← sdig_natCast, Nat.cast_sub Nat.one_le_two_pow, Nat.cast_one]

/-! ### The sign and the signed range (R12) -/

theorem sign_eq_testBit (hw : 0 < w) (hn : 0 < n) (a : Value w n) : sign a = a.val.testBit (n * w - 1) := by
  rw [sign, getLsbD_digitAt a _ (Nat.sub_lt hw one_pos), mul_pred_add_pred hw hn]

/-- The sign bit is set exactly for the upper half of the numbers. -/
theorem sign_iff_half_le (hw : 0 < w) (hn : 0 < n) (a : Value w n) : sign a = true ↔ 2 ^ (n * w - 1) ≤ a.val := by
  have hlt := val_lt a
  rw [← Nat.sub_add_cancel (Nat.mul_pos hn hw)] at hlt
  rw [sign_eq_testBit hw hn]
  constructor
  · exact Nat.ge_two_pow_of_testBit
  · exact fun hge => Nat.testBit_of_two_pow_le_and_two_pow_add_one_gt hge hlt

/-- The statements' `outOfRange`, for any `W` and `N`: an integer is outside the signed range. -/
abbrev OutOfSigned (w n : Nat) (v : Int) : Prop :=
  v < -((2 ^ (n * w - 1) : Nat) : Int) ∨ ((2 ^ (n * w - 1) : Nat) : Int) ≤ v

/-- The signed reading is in the signed range. -/
theorem not_outOfSigned_sval (hw : 0 < w) (hn : 0 < n) (a : Value w n) : ¬OutOfSigned w n (sval a) := by
  have hhalf := Nat.two_pow_pred_add_two_pow_pred (Nat.mul_pos hn hw)
  have hsign := sign_iff_half_le hw hn a
  have hlt := val_lt a
  cases h : sign a with
  | false =>
    rw [h, Bool.false_eq_true, false_iff] at hsign
    rw [sval_of_not_sign h]
    omega
  | true =>
    have hge := hsign.1 h
    have hnot := val_notN a
    rw [sval_of_sign h, Int.negSucc_eq]
    omega

/-- Wrapping an integer that is at most `2^BITS` away from zero keeps its sign exactly when it is in the signed
range. -/
theorem sign_sdig_iff (hw : 0 < w) (hn : 0 < n) {v : Int} (hlow : -((2 ^ (n * w) : Nat) : Int) ≤ v)
    (hhigh : v < (2 ^ (n * w) : Nat)) : sign (sdig w n v) = true ↔ (v < 0 ↔ ¬OutOfSigned w n v) := by
  have hhalf := Nat.two_pow_pred_add_two_pow_pred (Nat.mul_pos hn hw)
  have hval : ((sdig w n v).val : Int) = v % (2 ^ (n * w) : Nat) := by rw [val_sdig, Nat.cast_pow, Nat.cast_ofNat]
  rw [sign_iff_half_le hw hn]
  obtain hneg | hpos := lt_or_ge v 0
  · rw [← Int.add_emod_right, Int.emod_eq_of_lt (by omega) (by omega)] at hval
    omega
  · rw [Int.emod_eq_of_lt hpos hhigh] at hval
    omega

/-! ### The adder and the subtractor (R200, R201) -/

/-- The adder keeps the sum modulo `2^BITS`. -/
theorem addN_eq_dig (a b : Value w n) : (addN a b false).1 = dig w n (a.val + b.val) := by
  have h := addN_exact a b false
  rw [Bool.toNat_false, Nat.add_zero] at h
  rw [eq_dig_iff, ← h, Nat.add_mul_mod_self_left, Nat.mod_eq_of_lt (val_lt _)]

/-- The carry out tells that the sum is `2^BITS` or more. -/
theorem addN_carry (a b : Value w n) : (addN a b false).2 = decide (2 ^ (n * w) ≤ a.val + b.val) := by
  have h := addN_exact a b false
  have hlt := val_lt (addN a b false).1
  cases hcarry : (addN a b false).2 <;> simp only [hcarry, Bool.toNat_false, Bool.toNat_true] at h
  · exact (decide_eq_false (by omega)).symm
  · exact (decide_eq_true (by omega)).symm

/-- The subtractor keeps the difference modulo `2^BITS`. -/
theorem subN_eq_sdig (a b : Value w n) : (subN a b).1 = sdig w n ((a.val : Int) - b.val) := by
  rw [eq_sdig_iff, ← subN_exact]
  exact Int.modEq_iff_dvd.2 ⟨-(subN a b).2.toNat, by ring⟩

/-- The borrow out tells that the minuend is the smaller. -/
theorem subN_borrow (a b : Value w n) : (subN a b).2 = decide (a.val < b.val) := by
  have h := subN_exact a b
  have hlt : ((subN a b).1.val : Int) < 2 ^ (n * w) := by exact_mod_cast val_lt (subN a b).1
  cases hborrow : (subN a b).2 <;> simp only [hborrow, Bool.toNat_false, Bool.toNat_true] at h
  · exact (decide_eq_false (by omega)).symm
  · exact (decide_eq_true (by omega)).symm

/-- Under the signed reading the adder keeps the signed sum modulo `2^BITS`. -/
theorem addN_eq_sdig_sval (a b : Value w n) : (addN a b false).1 = sdig w n (sval a + sval b) := by
  rw [addN_eq_dig, ← sdig_natCast, Nat.cast_add]
  exact sdig_congr ((sval_modEq_val a).add (sval_modEq_val b)).symm

/-- Under the signed reading the subtractor keeps the signed difference modulo `2^BITS`. -/
theorem subN_eq_sdig_sval (a b : Value w n) : (subN a b).1 = sdig w n (sval a - sval b) := by
  rw [subN_eq_sdig]
  exact sdig_congr ((sval_modEq_val a).sub (sval_modEq_val b)).symm

/-- Outside the signed range a sum or a difference has the sign of its first operand, since both operands are in the
range. -/
theorem sign_iff_neg_of_outOfSigned (hw : 0 < w) (hn : 0 < n) {a b : Value w n} {v : Int}
    (hv : v = sval a + sval b ∨ v = sval a - sval b) (hout : OutOfSigned w n v) : sign a = true ↔ v < 0 := by
  have ha := not_outOfSigned_sval hw hn a
  have hb := not_outOfSigned_sval hw hn b
  rw [← sval_neg_iff]
  omega

/-- The sign test of signed `ADD`: operands of one sign give a sum of the other exactly when the sum is outside the
signed range (R204). -/
theorem addSigned_overflow (hw : 0 < w) (hn : 0 < n) (a b : Value w n) :
    (addSignedTriple a b).overflow = decide (OutOfSigned w n (sval a + sval b)) := by
  have hhalf := Nat.two_pow_pred_add_two_pow_pred (Nat.mul_pos hn hw)
  have ha := not_outOfSigned_sval hw hn a
  have hb := not_outOfSigned_sval hw hn b
  have hsum := sign_sdig_iff hw hn (v := sval a + sval b) (by omega) (by omega)
  rw [addSignedTriple, addN_eq_sdig_sval, Bool.eq_iff_iff]
  simp only [Bool.and_eq_true, beq_iff_eq, bne_iff_ne, ne_eq, Bool.eq_iff_iff (b := sign _), ← sval_neg_iff, hsum,
    decide_eq_true_iff]
  omega

/-- The sign test of signed `SUB`: operands of different signs give a difference without the minuend's sign exactly when
the difference is outside the signed range (R205). -/
theorem subSigned_overflow (hw : 0 < w) (hn : 0 < n) (a b : Value w n) :
    (subSignedTriple a b).overflow = decide (OutOfSigned w n (sval a - sval b)) := by
  have hhalf := Nat.two_pow_pred_add_two_pow_pred (Nat.mul_pos hn hw)
  have ha := not_outOfSigned_sval hw hn a
  have hb := not_outOfSigned_sval hw hn b
  have hdiff := sign_sdig_iff hw hn (v := sval a - sval b) (by omega) (by omega)
  rw [subSignedTriple, subN_eq_sdig_sval, Bool.eq_iff_iff]
  simp only [Bool.and_eq_true, bne_iff_ne, ne_eq, Bool.eq_iff_iff (b := sign _), ← sval_neg_iff, hdiff,
    decide_eq_true_iff]
  omega

end

/-! ### The five forms of an operation (R101 to R106) -/

/-- Delivery of a result under W, C, O, S and D is the five forms the statements speak of. -/
theorem fiveForms_of_deliver {s : State} {rd : Reg} {x : Triple s.inst.w s.inst.n} {o : Prop} [Decidable o]
    {b : Value s.inst.w s.inst.n} {iW iC iO iS iD : Instr} (ho : x.overflow = decide o) (hb : o → x.bound = b)
    (hW : exec iW s = .next (s.deliver .wrapping rd x)) (hC : exec iC s = .next (s.deliver .checked rd x))
    (hO : exec iO s = .next (s.deliver .overflowing rd x)) (hS : exec iS s = .next (s.deliver .saturating rd x))
    (hD : exec iD s = .next (s.deliver .panicking rd x)) :
    FiveForms s rd x.wrapped o b iW iC iO iS iD := by
  refine ⟨fourForms_of_deliver ho hW hC hO hD, fun h => ?_, fun h => ?_⟩
  · rw [hS, State.deliver, ho, decide_eq_true h, ← hb h]
    rfl
  · rw [hS, State.deliver, ho, decide_eq_false h]
    rfl

/-! ### The signed results the statements speak of -/

theorem snum_eq_sdig (s : State) (v : Int) : snum s v = sdig s.inst.w s.inst.n v := by
  rw [snum, sdig, Nat.cast_pow, Nat.cast_ofNat]

/-- The bound on the side of an integer is `SMIN` or `SMAX`, by its sign. -/
theorem ite_eq_signedBound (s : State) {negative : Bool} {v : Int} (h : negative = true ↔ v < 0) :
    (if negative then sminV s.inst.w s.inst.n else smaxV s.inst.w s.inst.n) = signedBound s v := by
  rw [signedBound, snum_eq_sdig, snum_eq_sdig, sdig_neg_half (w_pos s.inst) s.inst.count_ok,
    sdig_half_sub_one (w_pos s.inst) s.inst.count_ok]
  simp only [h]

/-! ### The obligations -/

/-- Settles O40: the adder keeps the sum modulo `M`, and its carry is the overflow. -/
theorem unsignedAddition : Obligations.UnsignedAddition := by
  intro s rd a b
  rw [num, dig_mod, ← addN_eq_dig, num, dig_mod, ← umaxV_eq_dig]
  exact fiveForms_of_deliver (x := addTriple (s.reg a) (s.reg b)) (addN_carry _ _) (fun _ => rfl) rfl rfl rfl rfl rfl

/-- Settles O41: the subtractor keeps the difference modulo `M`, and its borrow is the overflow. -/
theorem unsignedSubtraction : Obligations.UnsignedSubtraction := by
  intro s rd a b
  rw [snum_eq_sdig, ← subN_eq_sdig, num, dig_mod, ← zeroV_eq_dig]
  exact fiveForms_of_deliver (x := subTriple (s.reg a) (s.reg b)) (subN_borrow _ _) (fun _ => rfl) rfl rfl rfl rfl rfl

/-- Settles O42: the same adder under the signed reading; a sum outside the range has the sign of both operands. -/
theorem signedAddition : Obligations.SignedAddition := by
  intro s rd a b
  have hw := w_pos s.inst
  have hn := s.inst.count_ok
  rw [snum_eq_sdig, ← addN_eq_sdig_sval]
  exact fiveForms_of_deliver (x := addSignedTriple (s.reg a) (s.reg b)) (addSigned_overflow hw hn _ _)
    (fun hout => ite_eq_signedBound s (sign_iff_neg_of_outOfSigned hw hn (.inl rfl) hout)) rfl rfl rfl rfl rfl

/-- Settles O43: the same subtractor under the signed reading; a difference outside the range has the sign of the
minuend. -/
theorem signedSubtraction : Obligations.SignedSubtraction := by
  intro s rd a b
  have hw := w_pos s.inst
  have hn := s.inst.count_ok
  rw [snum_eq_sdig, ← subN_eq_sdig_sval]
  exact fiveForms_of_deliver (x := subSignedTriple (s.reg a) (s.reg b)) (subSigned_overflow hw hn _ _)
    (fun hout => ite_eq_signedBound s (sign_iff_neg_of_outOfSigned hw hn (.inr rfl) hout)) rfl rfl rfl rfl rfl

end Sys2Proof.Machine

/-! Family `46_multiply.md`: multiplication. Everything the multiplier does not store is a multiple of `2^BITS`, so the
stored part is the residue of the product and something was dropped exactly when the product does not fit. Signed
`MUL` multiplies the magnitudes and gives the product its sign back. -/

namespace Sys2Proof.Machine

open Sys2Proof.Claims

section
variable {w n : Nat}

/-! ### The schoolbook multiplier (R220, R221) -/

/-- The double-width accumulator of R220 fits `2W` bits. -/
theorem accumulator_le (a b carry r : BitVec w) :
    a.toNat * b.toNat + carry.toNat + r.toNat ≤ 2 ^ (2 * w) - 1 := by
  have hprod : a.toNat * b.toNat ≤ (2 ^ w - 1) * (2 ^ w - 1) :=
    Nat.mul_le_mul (Nat.le_sub_one_of_lt a.isLt) (Nat.le_sub_one_of_lt b.isLt)
  obtain ⟨m, hm⟩ := Nat.exists_eq_add_one_of_ne_zero (Nat.two_pow_pos w).ne'
  have hcarry := carry.isLt
  have hr := r.isLt
  have hsq : 2 ^ (2 * w) = m * m + m + m + 1 := by
    rw [Nat.mul_comm, pow_mul, hm]
    ring
  rw [hm, Nat.add_sub_cancel] at hprod
  omega

/-- The two halves of the accumulator, the digit written and the carry, hold all of it. -/
theorem accumulator_split (a b carry r : BitVec w) {t : Nat} (ht : t = a.toNat * b.toNat + carry.toNat + r.toNat) :
    (BitVec.ofNat w t).toNat + 2 ^ w * (BitVec.ofNat w (t / 2 ^ w)).toNat = t := by
  have hle := accumulator_le a b carry r
  have hpos := Nat.two_pow_pos (2 * w)
  have hhigh : t / 2 ^ w < 2 ^ w := by
    rw [Nat.div_lt_iff_lt_mul (Nat.two_pow_pos w), ← Nat.pow_add, ← Nat.two_mul]
    omega
  rw [BitVec.toNat_ofNat, BitVec.toNat_ofNat, Nat.mod_eq_of_lt hhigh, Nat.mod_add_div]

/-- The low `k` digits and the digits above them. -/
theorem natOfDigits_take_drop (k : Nat) (ds : List (BitVec w)) :
    natOfDigits (ds.take k) + 2 ^ (w * k) * natOfDigits (ds.drop k) = natOfDigits ds := by
  obtain hle | hge := le_total k ds.length
  · have happend := natOfDigits_append (ds.take k) (ds.drop k)
    rwa [List.take_append_drop, List.length_take_of_le hle, eq_comm] at happend
  · rw [List.take_of_length_le hge, List.drop_eq_nil_of_le hge, natOfDigits, Nat.mul_zero, Nat.add_zero]

/-- The zero test of the dropped digits. -/
theorem any_ne_zero_iff (ds : List (BitVec w)) : (ds.any fun d => d != 0#w) = true ↔ natOfDigits ds ≠ 0 := by
  simp [natOfDigits_eq_zero_iff]

/-- A row adds `a` times the digits of `b` it meets; its carry out is what does not fit the result digits. -/
theorem mulRow_exact (a : BitVec w) (bs rs : List (BitVec w)) (carry : BitVec w) :
    natOfDigits (mulRow a bs rs carry).1 + 2 ^ (w * rs.length) * (mulRow a bs rs carry).2.toNat =
      a.toNat * natOfDigits (bs.take rs.length) + natOfDigits rs + carry.toNat := by
  induction rs generalizing bs carry with
  | nil => simp [mulRow, natOfDigits]
  | cons r rs ih =>
    obtain ⟨t, ht⟩ : ∃ t, t = a.toNat * (bs.headD 0).toNat + carry.toNat + r.toNat := ⟨_, rfl⟩
    have hsplit := accumulator_split a (bs.headD 0) carry r ht
    have hrest := ih bs.tail (BitVec.ofNat w (t / 2 ^ w))
    have hbs : natOfDigits (bs.take (rs.length + 1)) =
        (bs.headD 0).toNat + 2 ^ w * natOfDigits (bs.tail.take rs.length) := by
      cases bs <;> simp [natOfDigits]
    simp only [mulRow, ← ht, natOfDigits, List.length_cons, hbs, Nat.mul_succ, pow_add]
    linear_combination hsplit + 2 ^ w * hrest + ht

/-- What the rows store and what they drop make up the product, and the overflow flag tells that something was
dropped: no dropped part is negative, so none hides another. -/
theorem mulRows_exact (as bs rs : List (BitVec w)) (hl : as.length = rs.length) (ovf : Bool) :
    ∃ dropped : Nat,
      natOfDigits (mulRows as bs rs ovf).1 + 2 ^ (w * rs.length) * dropped =
        natOfDigits as * natOfDigits bs + natOfDigits rs ∧
      ((mulRows as bs rs ovf).2 = true ↔ ovf = true ∨ dropped ≠ 0) := by
  induction as generalizing rs ovf with
  | nil =>
    obtain rfl : rs = [] := List.eq_nil_of_length_eq_zero hl.symm
    exact ⟨0, by simp [mulRows, natOfDigits], by simp [mulRows]⟩
  | cons a as ih =>
    obtain - | ⟨r, rs⟩ := rs
    · cases hl
    have hexact := mulRow_exact a bs (r :: rs) 0
    have hlength := mulRow_length a bs (r :: rs) 0
    have hhigh := any_ne_zero_iff (bs.drop (rs.length + 1))
    simp only [mulRows]
    generalize mulRow a bs (r :: rs) 0 = row at hexact hlength ⊢
    obtain ⟨digits, carry⟩ := row
    obtain ⟨digit, digits, rfl⟩ := List.exists_cons_of_length_eq_add_one hlength
    replace hlength : digits.length = rs.length := Nat.succ_injective hlength
    generalize ((bs.drop (rs.length + 1)).any fun b => b != 0#w) = anyHigh at hhigh ⊢
    obtain ⟨dropped, hrest, hovf⟩ := ih digits ((Nat.succ_injective hl).trans hlength.symm)
      (ovf || carry != 0#w || (a != 0#w && anyHigh))
    refine ⟨dropped + carry.toNat + a.toNat * natOfDigits (bs.drop (rs.length + 1)), ?_, ?_⟩
    · have hbs := natOfDigits_take_drop (rs.length + 1) bs
      have hcarryIn : (0 : BitVec w).toNat = 0 := BitVec.toNat_zero
      simp only [natOfDigits, List.headD_cons, List.tail_cons, List.length_cons, hlength, hcarryIn, Nat.mul_succ,
        pow_add] at hexact hrest hbs ⊢
      linear_combination 2 ^ w * hrest + hexact + a.toNat * hbs
    · rw [List.tail_cons, hovf]
      simp only [Bool.or_eq_true, Bool.and_eq_true, bne_iff_ne, hhigh, ne_eq, Nat.add_eq_zero_iff, Nat.mul_eq_zero,
        toNat_eq_zero_iff, BitVec.ofNat_eq_ofNat]
      tauto

/-- The multiplier's result and a multiple of `2^BITS` make up the product. -/
theorem mulN_exact (a b : Value w n) : ∃ dropped : Nat,
    (mulN a b).1.val + 2 ^ (n * w) * dropped = a.val * b.val ∧ ((mulN a b).2 = true ↔ dropped ≠ 0) := by
  obtain ⟨dropped, hsum, hovf⟩ := mulRows_exact a.digits b.digits (List.replicate n 0)
    (a.length_digits.trans List.length_replicate.symm) false
  have hzero : natOfDigits (List.replicate n (0 : BitVec w)) = 0 := val_zeroV
  rw [hzero, Nat.add_zero, List.length_replicate, Nat.mul_comm w] at hsum
  exact ⟨dropped, hsum, hovf.trans (by simp)⟩

/-- The multiplier keeps the product modulo `2^BITS`. -/
theorem mulN_eq_dig (a b : Value w n) : (mulN a b).1 = dig w n (a.val * b.val) := by
  obtain ⟨dropped, hsum, -⟩ := mulN_exact a b
  rw [eq_dig_iff, ← hsum, Nat.add_mul_mod_self_left, Nat.mod_eq_of_lt (val_lt _)]

/-- The multiplier flags exactly the products of `2^BITS` or more. -/
theorem mulN_overflow (a b : Value w n) : (mulN a b).2 = decide (2 ^ (n * w) ≤ a.val * b.val) := by
  obtain ⟨dropped, hsum, hovf⟩ := mulN_exact a b
  have hlt := val_lt (mulN a b).1
  rw [Bool.eq_iff_iff, hovf, decide_eq_true_iff, ← hsum]
  constructor
  · exact fun h => (Nat.le_mul_of_pos_right _ (Nat.pos_of_ne_zero h)).trans (Nat.le_add_left _ _)
  · rintro h rfl
    omega

/-! ### Negation and magnitude (R223, R281) -/

/-- The negator keeps the negated number modulo `2^BITS`. -/
theorem negN_eq_sdig (hw : 0 < w) (hn : 0 < n) (a : Value w n) : negN a = sdig w n (-a.val) := by
  have hnot : ((notN a).val + a.val + 1 : Int) = 2 ^ (n * w) := by exact_mod_cast val_notN a
  rw [negN, addN_eq_dig, val_oneV hw hn, ← sdig_natCast]
  refine sdig_congr (Int.modEq_iff_dvd.2 ⟨-1, ?_⟩)
  push_cast
  linear_combination -hnot

theorem negN_dig (hw : 0 < w) (hn : 0 < n) (v : Nat) : negN (dig w n v) = sdig w n (-v) := by
  rw [negN_eq_sdig hw hn, val_dig]
  refine sdig_congr (Int.ModEq.neg ?_)
  push_cast
  exact Int.mod_modEq _ _

theorem val_sminV (hw : 0 < w) (hn : 0 < n) : (sminV w n).val = 2 ^ (n * w - 1) := by
  rw [sminV_eq_dig hw hn, val_dig,
    Nat.mod_eq_of_lt (Nat.pow_lt_pow_right one_lt_two (Nat.sub_lt (Nat.mul_pos hn hw) one_pos))]

/-- `SMIN` is its own negation. -/
theorem negN_sminV (hw : 0 < w) (hn : 0 < n) : negN (sminV w n) = sminV w n := by
  rw [negN_eq_sdig hw hn, val_sminV hw hn, sdig_neg_half hw hn]

/-- The signed reading is the magnitude with the sign (R12, R223). -/
theorem sval_eq_ite_uabs (hw : 0 < w) (hn : 0 < n) (a : Value w n) :
    sval a = if sign a then -((uabs a).val : Int) else (uabs a).val := by
  cases h : sign a with
  | false => simpa [uabs, h] using sval_of_not_sign h
  | true =>
    have hlt : (a.val : Int) < 2 ^ (n * w) := by exact_mod_cast val_lt a
    have hge : 0 < a.val := (Nat.two_pow_pos _).trans_le ((sign_iff_half_le hw hn a).1 h)
    have hval : ((uabs a).val : Int) = 2 ^ (n * w) - a.val := by
      rw [uabs, if_pos h, negN_eq_sdig hw hn, val_sdig, ← Int.add_emod_right, Int.emod_eq_of_lt (by omega) (by omega)]
      ring
    rw [if_pos rfl, hval, sval, h, Bool.toNat_true]
    ring

/-- The magnitude is the absolute value of the signed reading. -/
theorem val_uabs (hw : 0 < w) (hn : 0 < n) (a : Value w n) : ((uabs a).val : Int) = |sval a| := by
  rw [sval_eq_ite_uabs hw hn]
  split <;> simp

/-! ### The sign restored to a product of magnitudes (R224) -/

/-- The signed product is the product of the magnitudes, negated when the signs differ. -/
theorem sval_mul_sval (hw : 0 < w) (hn : 0 < n) (a b : Value w n) :
    sval a * sval b =
      if sign a != sign b then -(((uabs a).val * (uabs b).val : Nat) : Int)
      else ((uabs a).val * (uabs b).val : Nat) := by
  rw [sval_eq_ite_uabs hw hn a, sval_eq_ite_uabs hw hn b]
  cases sign a <;> cases sign b <;> simp

/-- The sign bit of a magnitude that fits `BITS` bits tells that it is `2^(BITS-1)` or more. -/
theorem sign_dig_iff (hw : 0 < w) (hn : 0 < n) {m : Nat} (hm : m < 2 ^ (n * w)) :
    sign (dig w n m) = true ↔ 2 ^ (n * w - 1) ≤ m := by
  rw [sign_iff_half_le hw hn, val_dig, Nat.mod_eq_of_lt hm]

/-- A magnitude is out of the range of the non-negative signed values when it is above `SMAX`. -/
theorem magnitude_overflow (hw : 0 < w) (hn : 0 < n) (m : Nat) :
    (decide (2 ^ (n * w) ≤ m) || sign (dig w n m)) = decide (OutOfSigned w n m) := by
  have hhalf := Nat.two_pow_pred_add_two_pow_pred (Nat.mul_pos hn hw)
  rw [Bool.eq_iff_iff, Bool.or_eq_true, decide_eq_true_iff, decide_eq_true_iff]
  obtain hm | hm := lt_or_ge m (2 ^ (n * w))
  · rw [sign_dig_iff hw hn hm]
    omega
  · simp only [hm, true_or, true_iff]
    omega

/-- A magnitude is out of the range of the negative signed values when it is above that of `SMIN`. -/
theorem negated_magnitude_overflow (hw : 0 < w) (hn : 0 < n) (m : Nat) :
    (decide (2 ^ (n * w) ≤ m) || (sign (dig w n m) && !eqN (dig w n m) (sminV w n))) =
      decide (OutOfSigned w n (-m)) := by
  have hhalf := Nat.two_pow_pred_add_two_pow_pred (Nat.mul_pos hn hw)
  have hpos := Nat.two_pow_pos (n * w - 1)
  rw [Bool.eq_iff_iff, Bool.or_eq_true, Bool.and_eq_true, Bool.not_eq_true', Bool.eq_false_iff, ne_eq, eqN_iff_eq,
    decide_eq_true_iff, decide_eq_true_iff]
  obtain hm | hm := lt_or_ge m (2 ^ (n * w))
  · rw [sign_dig_iff hw hn hm, ← val_inj, val_dig, Nat.mod_eq_of_lt hm, val_sminV hw hn]
    omega
  · simp only [hm, true_or, true_iff]
    omega

/-- Signed `MUL` keeps the signed product modulo `2^BITS`. -/
theorem mulSigned_wrapped (hw : 0 < w) (hn : 0 < n) (a b : Value w n) :
    (mulSignedTriple a b).wrapped = sdig w n (sval a * sval b) := by
  rw [sval_mul_sval hw hn, mulSignedTriple, mulN_eq_dig]
  split
  · exact negN_dig hw hn _
  · exact (sdig_natCast _).symm

/-- Signed `MUL` overflows exactly when the signed product is outside the signed range. -/
theorem mulSigned_overflow (hw : 0 < w) (hn : 0 < n) (a b : Value w n) :
    (mulSignedTriple a b).overflow = decide (OutOfSigned w n (sval a * sval b)) := by
  simp only [sval_mul_sval hw hn, mulSignedTriple, mulN_eq_dig, mulN_overflow]
  split
  · exact negated_magnitude_overflow hw hn _
  · exact magnitude_overflow hw hn _

theorem mulSigned_bound (a b : Value w n) :
    (mulSignedTriple a b).bound = if sign a != sign b then sminV w n else smaxV w n := by
  rw [mulSignedTriple]
  split <;> rfl

/-- A product outside the signed range is not zero, so it is negative exactly when the signs differ. -/
theorem signs_differ_iff_mul_neg (hw : 0 < w) (hn : 0 < n) {a b : Value w n}
    (hout : OutOfSigned w n (sval a * sval b)) : (sign a != sign b) = true ↔ sval a * sval b < 0 := by
  have hpos := Nat.two_pow_pos (n * w - 1)
  rw [sval_mul_sval hw hn] at hout ⊢
  generalize (uabs a).val * (uabs b).val = m at hout ⊢
  generalize (sign a != sign b) = differ at hout ⊢
  cases differ with
  | false =>
    rw [if_neg Bool.false_ne_true]
    simp
  | true =>
    rw [if_pos rfl] at hout ⊢
    simp only [true_iff]
    omega

end

/-! ### The obligations -/

/-- Settles O44: what the multiplier does not store is a multiple of `2^BITS`, and it is zero exactly when nothing was
dropped. -/
theorem multiplierIsExact : Obligations.MultiplierIsExact := by
  refine ⟨fun w => accumulator_le, fun w n a b => ⟨?_, ?_⟩⟩
  · rw [mulN_eq_dig, val_dig]
  · rw [mulN_overflow, decide_eq_true_iff]

/-- Settles O45: the multiplier keeps the product modulo `M`, and its flag is the overflow. -/
theorem unsignedMultiplication : Obligations.UnsignedMultiplication := by
  intro s rd a b
  rw [num, dig_mod, ← mulN_eq_dig, num, dig_mod, ← umaxV_eq_dig]
  exact fiveForms_of_deliver (x := mulTriple (s.reg a) (s.reg b)) (mulN_overflow _ _) (fun _ => rfl) rfl rfl rfl rfl rfl

/-- Settles O46: the product of the magnitudes with its sign restored; `SMIN` alone may have the magnitude
`2^(BITS-1)`. -/
theorem signedMultiplication : Obligations.SignedMultiplication := by
  intro s rd a b
  have hw := w_pos s.inst
  have hn := s.inst.count_ok
  rw [snum_eq_sdig, ← mulSigned_wrapped hw hn]
  exact fiveForms_of_deliver (mulSigned_overflow hw hn _ _)
    (fun hout => (mulSigned_bound _ _).trans (ite_eq_signedBound s (signs_differ_iff_mul_neg hw hn hout)))
    rfl rfl rfl rfl rfl

/-- Settles O53: the negator gives the magnitude of a negative value, `SMIN` included. -/
theorem magnitudeOfSignedValue : Obligations.MagnitudeOfSignedValue := by
  intro i a
  have hw := w_pos i
  have hn := i.count_ok
  exact ⟨rfl, val_uabs hw hn a, negN_sminV hw hn, val_sminV hw hn⟩

end Sys2Proof.Machine

/-! Family `47_divide.md`: division. The divider keeps, bit by bit, quotient and remainder of the dividend bits it has
read. The signed forms divide the magnitudes, which gives the truncated pair, and move a negative remainder up by
`abs(B)`, which gives the Euclidean pair; `SMIN` by `MINUS_ONE` is the one pair whose quotient does not fit. -/

namespace Sys2Proof.Machine

open Sys2Proof.Claims

section
variable {w n : Nat}

/-! ### The divider (R240) -/

/-- One step of long division: with one more bit the divisor fits the shifted remainder once or not at all. -/
theorem div_mod_two_mul_add {p b d : Nat} (hb : b ≤ 1) (hd : 0 < d) :
    ((2 * p + b) / d, (2 * p + b) % d) =
      if d ≤ 2 * (p % d) + b then (2 * (p / d) + 1, 2 * (p % d) + b - d) else (2 * (p / d), 2 * (p % d) + b) := by
  have hrem := Nat.mod_lt p hd
  have hp := Nat.mod_add_div p d
  split <;> rw [Prod.mk.injEq, Nat.div_mod_unique hd] <;> refine ⟨?_, by omega⟩
  · rw [Nat.mul_add, Nat.mul_left_comm]
    omega
  · rw [Nat.mul_left_comm]
    omega

/-- Started with quotient and remainder of the dividend bits from `k` up, the loop ends with those of the dividend. -/
theorem divLoop_eq (hw : 0 < w) (a : Value w n) {d : Nat} (hd : 0 < d) (k : Nat) :
    divLoop a d k (a.val / 2 ^ k / d) (a.val / 2 ^ k % d) = (a.val / d, a.val % d) := by
  induction k with
  | zero => rw [divLoop, pow_zero, Nat.div_one]
  | succ k ih =>
    have hbits : a.val / 2 ^ k = 2 * (a.val / 2 ^ (k + 1)) + (bitOf a k).toNat := by
      rw [bitOf_eq_testBit hw, Nat.toNat_testBit, pow_succ, ← Nat.div_div_eq_div_mul, Nat.div_add_mod]
    have hstep := div_mod_two_mul_add (p := a.val / 2 ^ (k + 1)) (Bool.toNat_le (bitOf a k)) hd
    rw [← hbits] at hstep
    simp only [divLoop]
    split_ifs at hstep ⊢ <;>
    · obtain ⟨hquot, hrem⟩ := Prod.mk.inj hstep
      rw [← hquot, ← hrem, ih]

theorem divRemN_eq_dig (a : Value w n) {d : Value w n} (hd : d.val ≠ 0) :
    divRemN a d = (dig w n (a.val / d.val), dig w n (a.val % d.val)) := by
  have hw : 0 < w := Nat.pos_of_ne_zero fun hw => hd (by simpa [hw] using val_lt d)
  have hloop := divLoop_eq hw a (Nat.pos_of_ne_zero hd) (n * w)
  rw [Nat.div_eq_of_lt (val_lt a), Nat.zero_div, Nat.zero_mod] at hloop
  rw [divRemN, hloop]

/-! ### Values as wrapped integers -/

/-- The signed reading of a wrapped integer is congruent to it. -/
theorem sval_sdig_modEq (v : Int) : sval (sdig w n v) ≡ v [ZMOD 2 ^ (n * w)] :=
  (sval_modEq_val _).trans ((eq_sdig_iff _ v).1 rfl)

/-- An integer in the signed range is the signed reading of its wrapped value. -/
theorem sval_sdig (hw : 0 < w) (hn : 0 < n) {v : Int} (hv : ¬OutOfSigned w n v) : sval (sdig w n v) = v := by
  have hhalf := Nat.two_pow_pred_add_two_pow_pred (Nat.mul_pos hn hw)
  have hin := not_outOfSigned_sval hw hn (sdig w n v)
  have hdvd : ((2 ^ (n * w) : Nat) : Int) ∣ v - sval (sdig w n v) := by
    exact_mod_cast (sval_sdig_modEq v).dvd
  have hzero := Int.eq_zero_of_abs_lt_dvd hdvd (abs_lt.2 (by omega))
  omega

/-- A value is the wrapped form of an integer in the signed range exactly when it reads as that integer. -/
theorem eq_sdig_iff_sval (hw : 0 < w) (hn : 0 < n) (a : Value w n) {v : Int} (hv : ¬OutOfSigned w n v) :
    a = sdig w n v ↔ sval a = v := by
  rw [← sval_inj, sval_sdig hw hn hv]

theorem addN_of_modEq {a b : Value w n} {u v : Int} (ha : sval a ≡ u [ZMOD 2 ^ (n * w)])
    (hb : sval b ≡ v [ZMOD 2 ^ (n * w)]) : (addN a b false).1 = sdig w n (u + v) := by
  rw [addN_eq_sdig_sval, sdig_congr (ha.add hb)]

theorem subN_of_modEq {a b : Value w n} {u v : Int} (ha : sval a ≡ u [ZMOD 2 ^ (n * w)])
    (hb : sval b ≡ v [ZMOD 2 ^ (n * w)]) : (subN a b).1 = sdig w n (u - v) := by
  rw [subN_eq_sdig_sval, sdig_congr (ha.sub hb)]

theorem sval_oneV_modEq (hw : 0 < w) (hn : 0 < n) : sval (oneV w n) ≡ 1 [ZMOD 2 ^ (n * w)] := by
  simpa [val_oneV hw hn] using sval_modEq_val (oneV w n)

/-- `MINUS_ONE` is the pattern `UMAX` (R13). -/
theorem umaxV_eq_sdig : umaxV w n = sdig w n (-1) := by
  rw [umaxV_eq_dig, ← sdig_natCast, Nat.cast_sub Nat.one_le_two_pow]
  exact sdig_congr (Int.modEq_iff_dvd.2 ⟨-1, by push_cast; ring⟩)

/-! ### The truncated pair (R247, R248) -/

theorem val_uabs_ne_zero (hw : 0 < w) (hn : 0 < n) {b : Value w n} (hb : sval b ≠ 0) : (uabs b).val ≠ 0 := by
  rwa [← Int.natCast_ne_zero, val_uabs hw hn, abs_ne_zero]

/-- A value that reads as an integer other than 0 is not the pattern `ZERO`. -/
theorem val_ne_zero_of_sval_ne_zero {b : Value w n} (hb : sval b ≠ 0) : b.val ≠ 0 := by
  intro hzero
  obtain rfl : b = zeroV w n := val_inj.1 (hzero.trans val_zeroV.symm)
  exact hb (by rw [sval_of_not_sign (by simp [sign, zeroV]), val_zeroV, Nat.cast_zero])

/-- The quotient rounded toward zero is the quotient of the magnitudes, negated when the signs differ. -/
theorem sval_tdiv_sval (hw : 0 < w) (hn : 0 < n) (a b : Value w n) :
    (sval a).tdiv (sval b) =
      if sign a != sign b then -(((uabs a).val / (uabs b).val : Nat) : Int)
      else ((uabs a).val / (uabs b).val : Nat) := by
  rw [sval_eq_ite_uabs hw hn a, sval_eq_ite_uabs hw hn b, Int.ofNat_tdiv]
  cases sign a <;> cases sign b <;> simp

/-- Its remainder is that of the magnitudes with the dividend's sign. -/
theorem sval_tmod_sval (hw : 0 < w) (hn : 0 < n) (a b : Value w n) :
    (sval a).tmod (sval b) =
      if sign a then -(((uabs a).val % (uabs b).val : Nat) : Int) else ((uabs a).val % (uabs b).val : Nat) := by
  rw [sval_eq_ite_uabs hw hn a, sval_eq_ite_uabs hw hn b, Int.ofNat_tmod]
  cases sign a <;> cases sign b <;> simp

theorem truncQuot_eq_sdig (hw : 0 < w) (hn : 0 < n) (a : Value w n) {b : Value w n} (hb : sval b ≠ 0) :
    truncQuot a b = sdig w n ((sval a).tdiv (sval b)) := by
  rw [truncQuot, divRemN_eq_dig _ (val_uabs_ne_zero hw hn hb), sval_tdiv_sval hw hn]
  split
  · exact negN_dig hw hn _
  · exact (sdig_natCast _).symm

theorem truncRem_eq_sdig (hw : 0 < w) (hn : 0 < n) (a : Value w n) {b : Value w n} (hb : sval b ≠ 0) :
    truncRem a b = sdig w n ((sval a).tmod (sval b)) := by
  rw [truncRem, divRemN_eq_dig _ (val_uabs_ne_zero hw hn hb), sval_tmod_sval hw hn]
  split
  · exact negN_dig hw hn _
  · exact (sdig_natCast _).symm

/-! ### The Euclidean pair (R249, R250) -/

/-- The truncated remainder is negative exactly when it differs from the Euclidean one. -/
theorem tmod_neg_iff (x : Int) {y : Int} (hy : y ≠ 0) : x.tmod y < 0 ↔ ¬(0 ≤ x ∨ y ∣ x) := by
  have hnonneg := Int.emod_nonneg x hy
  have hlt := Int.emod_lt x hy
  rw [Int.tmod_eq_emod]
  split_ifs with h <;> simp only [h, not_true, not_false_iff, iff_true, iff_false] <;> omega

/-- Where the truncated remainder is negative the Euclidean quotient is one step away from the truncated one. -/
theorem ediv_eq_ite_tdiv (x : Int) {y : Int} (hy : y ≠ 0) :
    x / y = if x.tmod y < 0 then x.tdiv y - y.sign else x.tdiv y := by
  rw [Int.tdiv_eq_ediv]
  simp only [tmod_neg_iff x hy, ite_not]
  split_ifs <;> omega

/-- Where the truncated remainder is negative the Euclidean one is `abs(y)` above it. -/
theorem emod_eq_ite_tmod (x : Int) {y : Int} (hy : y ≠ 0) :
    x % y = if x.tmod y < 0 then x.tmod y + y.natAbs else x.tmod y := by
  simp only [tmod_neg_iff x hy, ite_not]
  rw [Int.tmod_eq_emod]
  split_ifs <;> omega

/-- A remainder is smaller than the divisor, so the truncated one fits the signed range and keeps its sign. -/
theorem sign_truncRem_iff (hw : 0 < w) (hn : 0 < n) (a : Value w n) {b : Value w n} (hb : sval b ≠ 0) :
    sign (truncRem a b) = true ↔ (sval a).tmod (sval b) < 0 := by
  have hin := not_outOfSigned_sval hw hn b
  have hlt : ((sval a).tmod (sval b)).natAbs < (sval b).natAbs := by
    rw [Int.natAbs_tmod]
    exact Nat.mod_lt _ (Int.natAbs_pos.2 hb)
  rw [← sval_neg_iff, truncRem_eq_sdig hw hn a hb, sval_sdig hw hn (by omega)]

/-- The correction of the quotient gives the Euclidean quotient. -/
theorem euclidQuot_eq_sdig (hw : 0 < w) (hn : 0 < n) (a : Value w n) {b : Value w n} (hb : sval b ≠ 0) :
    euclidQuot a b = sdig w n (sval a / sval b) := by
  have hquot : sval (truncQuot a b) ≡ (sval a).tdiv (sval b) [ZMOD 2 ^ (n * w)] :=
    truncQuot_eq_sdig hw hn a hb ▸ sval_sdig_modEq _
  have hone := sval_oneV_modEq hw hn
  simp only [euclidQuot, sign_truncRem_iff hw hn a hb, ediv_eq_ite_tdiv _ hb, addN_of_modEq hquot hone,
    subN_of_modEq hquot hone, ← sval_neg_iff]
  split_ifs with hrem hneg
  · rw [Int.sign_eq_neg_one_of_neg hneg, sub_neg_eq_add]
  · rw [Int.sign_eq_one_of_pos (by omega)]
  · exact truncQuot_eq_sdig hw hn a hb

/-- The correction of the remainder gives the Euclidean remainder. -/
theorem euclidRem_eq_sdig (hw : 0 < w) (hn : 0 < n) (a : Value w n) {b : Value w n} (hb : sval b ≠ 0) :
    euclidRem a b = sdig w n (sval a % sval b) := by
  have hmod : sval (truncRem a b) ≡ (sval a).tmod (sval b) [ZMOD 2 ^ (n * w)] :=
    truncRem_eq_sdig hw hn a hb ▸ sval_sdig_modEq _
  have hdivisor : sval b ≡ sval b [ZMOD 2 ^ (n * w)] := rfl
  simp only [euclidRem, sign_truncRem_iff hw hn a hb, emod_eq_ite_tmod _ hb, addN_of_modEq hmod hdivisor,
    subN_of_modEq hmod hdivisor, ← sval_neg_iff]
  split_ifs with hrem hneg
  · rw [Int.ofNat_natAbs_of_nonpos hneg.le, sub_eq_add_neg]
  · rw [Int.natAbs_of_nonneg (not_lt.1 hneg)]
  · exact truncRem_eq_sdig hw hn a hb

/-! ### The one pair that overflows (R247 to R250) -/

/-- The pair `SMIN`, `MINUS_ONE` under the signed reading. -/
theorem divOverflows_iff (hw : 0 < w) (hn : 0 < n) (a b : Value w n) :
    divOverflows a b = true ↔ sval a = -((2 ^ (n * w - 1) : Nat) : Int) ∧ sval b = -1 := by
  have hpos := Nat.two_pow_pos (n * w - 1)
  rw [divOverflows, Bool.and_eq_true, eqN_iff_eq, eqN_iff_eq, ← sdig_neg_half hw hn, umaxV_eq_sdig,
    eq_sdig_iff_sval hw hn a (by omega), eq_sdig_iff_sval hw hn b (by omega)]

/-- `SMIN` is also the wrapped form of the quotient that does not fit. -/
theorem sminV_eq_sdig_half (hw : 0 < w) (hn : 0 < n) : sminV w n = sdig w n (2 ^ (n * w - 1) : Nat) := by
  rw [sminV_eq_dig hw hn, sdig_natCast]

/-- The result a signed quotient command hands to delivery, for a quotient that is `2^(BITS-1)` where it overflows. -/
theorem signedQuotTriple_wrapped (hw : 0 < w) (hn : 0 < n) {a b q : Value w n} {v : Int} (hq : q = sdig w n v)
    (hv : sval a = -((2 ^ (n * w - 1) : Nat) : Int) → sval b = -1 → v = (2 ^ (n * w - 1) : Nat)) :
    (signedQuotTriple q a b).wrapped = sdig w n v := by
  rw [signedQuotTriple]
  split
  · next h =>
    obtain ⟨ha, hb⟩ := (divOverflows_iff hw hn a b).1 h
    rw [hv ha hb]
    exact sminV_eq_sdig_half hw hn
  · exact hq

/-- The result a signed remainder command hands to delivery, for a remainder that is 0 where it overflows. -/
theorem signedRemTriple_wrapped (hw : 0 < w) (hn : 0 < n) {a b r : Value w n} {v : Int} (hr : r = sdig w n v)
    (hv : sval b = -1 → v = 0) : (signedRemTriple r a b).wrapped = sdig w n v := by
  rw [signedRemTriple]
  split
  · next h =>
    obtain ⟨-, hb⟩ := (divOverflows_iff hw hn a b).1 h
    rw [hv hb, ← Nat.cast_zero, sdig_natCast]
    exact zeroV_eq_dig
  · exact hr

theorem signedQuotTriple_overflow (hw : 0 < w) (hn : 0 < n) (q a b : Value w n) :
    (signedQuotTriple q a b).overflow =
      decide (sval a = -((2 ^ (n * w - 1) : Nat) : Int) ∧ sval b = -1) := by
  rw [Bool.eq_iff_iff, decide_eq_true_iff, ← divOverflows_iff hw hn a b, signedQuotTriple]
  split <;> simp [*]

theorem signedRemTriple_overflow (hw : 0 < w) (hn : 0 < n) (r a b : Value w n) :
    (signedRemTriple r a b).overflow =
      decide (sval a = -((2 ^ (n * w - 1) : Nat) : Int) ∧ sval b = -1) := by
  rw [Bool.eq_iff_iff, decide_eq_true_iff, ← divOverflows_iff hw hn a b, signedRemTriple]
  split <;> simp [*]

/-- Where a signed quotient overflows it is above the range, so the bound is `SMAX`. -/
theorem signedQuotTriple_bound (hw : 0 < w) (hn : 0 < n) (q : Value w n) {a b : Value w n}
    (h : sval a = -((2 ^ (n * w - 1) : Nat) : Int) ∧ sval b = -1) :
    (signedQuotTriple q a b).bound = sdig w n ((2 ^ (n * w - 1) : Nat) - 1) := by
  rw [signedQuotTriple, if_pos ((divOverflows_iff hw hn a b).2 h), sdig_half_sub_one hw hn]

end

/-! ### The forms of a division whose divisor is not zero (R110, R242) -/

theorem State.deliverDivision_of_val_ne_zero {s : State} {d : Value s.inst.w s.inst.n} (hd : d.val ≠ 0)
    (var : Variant) (rd : Reg) (x : Triple s.inst.w s.inst.n) :
    s.deliverDivision var rd d x = s.deliver var rd x := by
  refine if_neg fun hzero => hd ?_
  rw [(isZeroN_iff_eq d).1 hzero, val_zeroV]

section
variable {s : State} {rd : Reg} {d : Value s.inst.w s.inst.n} {x : Triple s.inst.w s.inst.n} {iW iC iO iS iD : Instr}
  {o : Prop} [Decidable o]

theorem fourForms_of_deliverDivision (hd : d.val ≠ 0) (ho : x.overflow = decide o)
    (hW : exec iW s = .next (s.deliverDivision .wrapping rd d x))
    (hC : exec iC s = .next (s.deliverDivision .checked rd d x))
    (hO : exec iO s = .next (s.deliverDivision .overflowing rd d x))
    (hD : exec iD s = .next (s.deliverDivision .panicking rd d x)) :
    FourForms s rd x.wrapped o iW iC iO iD := by
  rw [State.deliverDivision_of_val_ne_zero hd] at hW hC hO hD
  exact fourForms_of_deliver ho hW hC hO hD

theorem fiveForms_of_deliverDivision {b : Value s.inst.w s.inst.n} (hd : d.val ≠ 0) (ho : x.overflow = decide o)
    (hb : o → x.bound = b) (hW : exec iW s = .next (s.deliverDivision .wrapping rd d x))
    (hC : exec iC s = .next (s.deliverDivision .checked rd d x))
    (hO : exec iO s = .next (s.deliverDivision .overflowing rd d x))
    (hS : exec iS s = .next (s.deliverDivision .saturating rd d x))
    (hD : exec iD s = .next (s.deliverDivision .panicking rd d x)) :
    FiveForms s rd x.wrapped o b iW iC iO iS iD := by
  rw [State.deliverDivision_of_val_ne_zero hd] at hW hC hO hS hD
  exact fiveForms_of_deliver ho hb hW hC hO hS hD

/-- The forms of a division that does not overflow are exact. -/
theorem fourExact_of_deliverDivision (hd : d.val ≠ 0) (ho : x.overflow = false)
    (hW : exec iW s = .next (s.deliverDivision .wrapping rd d x))
    (hC : exec iC s = .next (s.deliverDivision .checked rd d x))
    (hO : exec iO s = .next (s.deliverDivision .overflowing rd d x))
    (hD : exec iD s = .next (s.deliverDivision .panicking rd d x)) :
    FourExact s rd x.wrapped iW iC iO iD := by
  obtain ⟨hW, -, hC, hO, -, hD⟩ := fourForms_of_deliverDivision (o := False) hd ho hW hC hO hD
  exact ⟨hW, hC not_false, hO, hD (.inr not_false)⟩

end

/-! ### The obligations -/

/-- Settles O47: the loop ends with quotient and remainder, and neither exceeds the dividend. -/
theorem dividerIsExact : Obligations.DividerIsExact := by
  intro w n a d hd
  have hlt := val_lt a
  rw [divRemN_eq_dig a hd]
  simp only [val_dig]
  exact ⟨Nat.mod_eq_of_lt ((Nat.div_le_self _ _).trans_lt hlt), Nat.mod_eq_of_lt ((Nat.mod_le _ _).trans_lt hlt)⟩

/-- Settles O48: without an overflow every form delivers the divider's quotient or remainder. -/
theorem unsignedDivision : Obligations.UnsignedDivision := by
  intro s rd a b hb
  have hquot : (quotTriple (s.reg a) (s.reg b)).wrapped = num s (uA s a / uA s b) := by
    rw [quotTriple, divRemN_eq_dig _ hb, num, dig_mod]
  have hrem : (remTriple (s.reg a) (s.reg b)).wrapped = num s (uA s a % uA s b) := by
    rw [remTriple, divRemN_eq_dig _ hb, num, dig_mod]
  rw [← hquot, ← hrem]
  have hsat : execDivSat rd a b s = .next (wroteV s rd (quotTriple (s.reg a) (s.reg b)).wrapped s.flags) :=
    congrArg Host.Outcome.next (State.deliverDivision_of_val_ne_zero hb .saturating rd _)
  exact ⟨fourExact_of_deliverDivision hb rfl rfl rfl rfl rfl, hsat,
    fourExact_of_deliverDivision hb rfl rfl rfl rfl rfl, hsat,
    fourExact_of_deliverDivision hb rfl rfl rfl rfl rfl, fourExact_of_deliverDivision hb rfl rfl rfl rfl rfl⟩

/-- Settles O49: the magnitudes divided and the signs restored; where `SMIN` is divided by `MINUS_ONE` the quotient is
`2^(BITS-1)` and the remainder 0. -/
theorem signedTruncatedDivision : Obligations.SignedTruncatedDivision := by
  intro s rd a b hb
  have hw := w_pos s.inst
  have hn := s.inst.count_ok
  have hd := val_ne_zero_of_sval_ne_zero hb
  have hquot := signedQuotTriple_wrapped hw hn (truncQuot_eq_sdig hw hn (s.reg a) hb)
    fun ha hb => by rw [ha, hb, Int.neg_tdiv_neg, Int.tdiv_one]
  have hrem := signedRemTriple_wrapped hw hn (a := s.reg a) (b := s.reg b) (truncRem_eq_sdig hw hn (s.reg a) hb)
    fun hb => by rw [hb, Int.tmod_neg, Int.tmod_one]
  simp only [snum_eq_sdig]
  rw [← hquot, ← hrem]
  exact ⟨fiveForms_of_deliverDivision hd (signedQuotTriple_overflow hw hn _ _ _) (signedQuotTriple_bound hw hn _)
      rfl rfl rfl rfl rfl,
    fourForms_of_deliverDivision hd (signedRemTriple_overflow hw hn _ _ _) rfl rfl rfl rfl⟩

/-- Settles O50: the pair is Lean's Euclidean division of integers, and it overflows where the truncated one does. -/
theorem signedEuclideanDivision : Obligations.SignedEuclideanDivision := by
  intro s rd a b hb
  have hw := w_pos s.inst
  have hn := s.inst.count_ok
  have hd := val_ne_zero_of_sval_ne_zero hb
  have hquot := signedQuotTriple_wrapped hw hn (euclidQuot_eq_sdig hw hn (s.reg a) hb)
    fun ha hb => by rw [ha, hb, Int.ediv_neg, Int.ediv_one, neg_neg]
  have hrem := signedRemTriple_wrapped hw hn (a := s.reg a) (b := s.reg b) (euclidRem_eq_sdig hw hn (s.reg a) hb)
    fun hb => by rw [hb, Int.emod_neg, Int.emod_one]
  refine ⟨sA s a / sA s b, sA s a % sA s b, (Int.ediv_mul_add_emod _ _).symm, Int.emod_nonneg _ hb,
    Int.emod_lt_abs _ hb, ?_⟩
  simp only [snum_eq_sdig]
  rw [← hquot, ← hrem]
  exact ⟨fiveForms_of_deliverDivision hd (signedQuotTriple_overflow hw hn _ _ _) (signedQuotTriple_bound hw hn _)
      rfl rfl rfl rfl rfl,
    fourForms_of_deliverDivision hd (signedRemTriple_overflow hw hn _ _ _) rfl rfl rfl rfl⟩

end Sys2Proof.Machine

/-! Family `48_gcd_log_npot.md`: GCD, LOG2 and NPOT. An operand that is not zero is a power of two, counted by `CtzN`,
times its odd part; the GCD loop keeps two odd operands with the same greatest common divisor and takes at least one bit
off them in each iteration, which its fuel of `2 * BITS` therefore outlasts. LOG2 and NPOT read their exponent from the
bit length. -/

namespace Sys2Proof.Machine

open Sys2Proof.Claims

section
variable {w n : Nat}

/-! ### The odd part of an operand (R181, R260) -/

theorem val_shrN_false (a : Value w n) (e : Nat) : (shrN a e false).val = a.val / 2 ^ e := by
  rw [shrN_false_eq_dig, val_dig, Nat.mod_eq_of_lt ((Nat.div_le_self _ _).trans_lt (val_lt a))]

/-- A number is the power of two that `CtzN` counts times what the shift by that count leaves. -/
theorem two_pow_ctzN_mul_val_shrN (a : Value w n) : 2 ^ ctzN a * (shrN a (ctzN a) false).val = a.val := by
  rw [val_shrN_false]
  exact Nat.mul_div_cancel' ((le_ctzN_iff a (ctzN_le a)).1 le_rfl)

/-- The shift by `CtzN` strips every factor 2 of a number that is not zero. -/
theorem odd_val_shrN_ctzN {a : Value w n} (ha : a.val ≠ 0) : Odd (shrN a (ctzN a) false).val := by
  have hlt : ctzN a < n * w := lt_of_le_of_ne (ctzN_le a) fun h => ha <| by
    rw [(ctzN_eq_bits_iff a).1 h, val_zeroV]
  rw [← Nat.not_even_iff_odd, even_iff_two_dvd]
  intro heven
  have hdvd : 2 ^ (ctzN a + 1) ∣ a.val := by
    rw [← two_pow_ctzN_mul_val_shrN a, pow_succ]
    exact Nat.mul_dvd_mul_left _ heven
  exact absurd ((le_ctzN_iff a hlt).2 hdvd) (Nat.not_succ_le_self _)

/-- Stripping an even number that is not zero at least halves it. -/
theorem two_mul_val_shrN_ctzN_le {a : Value w n} (ha : a.val ≠ 0) (heven : Even a.val) :
    2 * (shrN a (ctzN a) false).val ≤ a.val := by
  have hodd := odd_val_shrN_ctzN ha
  have hval := two_pow_ctzN_mul_val_shrN a
  cases hctz : ctzN a with
  | zero =>
    rw [hctz, pow_zero, one_mul] at hval
    rw [hctz, hval] at hodd
    exact absurd heven (Nat.not_even_iff_odd.2 hodd)
  | succ t =>
    rw [hctz, pow_succ, mul_assoc] at hval
    exact (Nat.le_mul_of_pos_left _ (Nat.two_pow_pos t)).trans hval.le

theorem val_subN_of_le {a b : Value w n} (h : b.val ≤ a.val) : (subN a b).1.val = a.val - b.val := by
  rw [subN_eq_sdig, ← Nat.cast_sub h, sdig_natCast, val_dig, Nat.mod_eq_of_lt ((Nat.sub_le _ _).trans_lt (val_lt a))]

theorem isZeroN_iff_val (a : Value w n) : isZeroN a = true ↔ a.val = 0 := by
  rw [isZeroN_iff_eq, ← val_inj, val_zeroV]

/-! ### The greatest common divisor (R260) -/

/-- A power of two is no factor of a common divisor with an odd number. -/
theorem gcd_two_pow_mul_of_odd {x : Nat} (hx : Odd x) (t y : Nat) : x.gcd (2 ^ t * y) = x.gcd y :=
  Nat.Coprime.gcd_mul_left_cancel_right y (hx.coprime_two_left.pow_left t)

/-- The greatest common divisor of two numbers is that of their odd parts times the smaller power of two. -/
theorem gcd_two_pow_mul_two_pow_mul {x y : Nat} (hx : Odd x) (hy : Odd y) (s t : Nat) :
    (2 ^ s * x).gcd (2 ^ t * y) = x.gcd y * 2 ^ min s t := by
  wlog hst : s ≤ t generalizing x y s t
  · rw [Nat.gcd_comm, this hy hx t s (Nat.le_of_not_le hst), Nat.gcd_comm, min_comm]
  obtain ⟨k, rfl⟩ := Nat.exists_eq_add_of_le hst
  rw [pow_add, mul_assoc, Nat.gcd_mul_left, gcd_two_pow_mul_of_odd hx, min_eq_left hst, mul_comm]

/-- One iteration of the loop: the operands are put in order and the smaller is subtracted from the larger. -/
theorem gcdLoop_succ (fuel : Nat) (a b : Value w n) :
    ∃ lo hi : Value w n, (lo = a ∧ hi = b ∨ lo = b ∧ hi = a) ∧ lo.val ≤ hi.val ∧
      gcdLoop (fuel + 1) a b = if isZeroN (subN hi lo).1 then lo
        else gcdLoop fuel lo (shrN (subN hi lo).1 (ctzN (subN hi lo).1) false) := by
  simp only [gcdLoop, cmpN_eq_compare, compare_gt_iff_gt]
  by_cases h : a.val > b.val
  · exact ⟨b, a, .inr ⟨rfl, rfl⟩, h.le, by simp only [if_pos h]⟩
  · exact ⟨a, b, .inl ⟨rfl, rfl⟩, Nat.not_lt.1 h, by simp only [if_neg h]⟩

/-- A number at least twice another that is not zero is longer. -/
theorem size_lt_size_of_two_mul_le {x y : Nat} (hx : x ≠ 0) (h : 2 * x ≤ y) : x.size < y.size := by
  obtain ⟨m, hm⟩ := Nat.exists_eq_succ_of_ne_zero (mt Nat.size_eq_zero.1 hx)
  have hle : 2 ^ m ≤ x := Nat.lt_size.1 (hm ▸ Nat.lt_succ_self m)
  rw [hm, Nat.lt_size, pow_succ]
  omega

/-- The loop ends with the greatest common divisor of its odd operands before the fuel runs out: each iteration
shortens the larger one. -/
theorem gcdLoop_exact (fuel : Nat) (a b : Value w n) (ha : Odd a.val) (hb : Odd b.val)
    (hfuel : a.val.size + b.val.size ≤ fuel) : (gcdLoop fuel a b).val = a.val.gcd b.val := by
  induction fuel generalizing a b with
  | zero =>
    obtain ⟨hzero, -⟩ := Nat.add_eq_zero_iff.1 (Nat.le_zero.1 hfuel)
    exact absurd (Nat.size_eq_zero.1 hzero) ha.pos.ne'
  | succ fuel ih =>
    obtain ⟨lo, hi, horder, hle, hstep⟩ := gcdLoop_succ fuel a b
    have hdiff := val_subN_of_le hle
    obtain ⟨hlo, hhi, hsize, hgcd⟩ : Odd lo.val ∧ Odd hi.val ∧ lo.val.size + hi.val.size ≤ fuel + 1 ∧
        a.val.gcd b.val = lo.val.gcd hi.val := by
      obtain ⟨rfl, rfl⟩ | ⟨rfl, rfl⟩ := horder
      · exact ⟨ha, hb, hfuel, rfl⟩
      · exact ⟨hb, ha, Nat.add_comm _ _ ▸ hfuel, Nat.gcd_comm _ _⟩
    rw [hstep, hgcd, ← Nat.gcd_sub_self_right hle, ← hdiff]
    split
    · next hzero => rw [(isZeroN_iff_val _).1 hzero, Nat.gcd_zero_right]
    · next hzero =>
      have hne := mt (isZeroN_iff_val _).2 hzero
      have hodd := odd_val_shrN_ctzN hne
      have hhalf := two_mul_val_shrN_ctzN_le hne (hdiff ▸ Nat.Odd.sub_odd hhi hlo)
      have hshorter := size_lt_size_of_two_mul_le hodd.pos.ne' (y := hi.val) (by omega)
      rw [ih lo _ hlo hodd (by omega), ← gcd_two_pow_mul_of_odd hlo (ctzN _), two_pow_ctzN_mul_val_shrN]

/-- `GcdN` is the greatest common divisor of the numbers, 0 being a multiple of every number. -/
theorem gcdN_eq_dig (a b : Value w n) : gcdN a b = dig w n (a.val.gcd b.val) := by
  rw [gcdN]
  split
  · next ha => rw [(isZeroN_iff_val a).1 ha, Nat.gcd_zero_left, dig_val]
  · next ha =>
    split
    · next hb => rw [(isZeroN_iff_val b).1 hb, Nat.gcd_zero_right, dig_val]
    · next hb =>
      have hodda := odd_val_shrN_ctzN (mt (isZeroN_iff_val a).2 ha)
      have hoddb := odd_val_shrN_ctzN (mt (isZeroN_iff_val b).2 hb)
      have hsizea := Nat.size_le.2 (val_lt (shrN a (ctzN a) false))
      have hsizeb := Nat.size_le.2 (val_lt (shrN b (ctzN b) false))
      rw [shlN_eq_dig, gcdLoop_exact _ _ _ hodda hoddb (by omega), ← gcd_two_pow_mul_two_pow_mul hodda hoddb,
        two_pow_ctzN_mul_val_shrN, two_pow_ctzN_mul_val_shrN]

/-! ### The binary logarithm (R262) -/

theorem log2N_add_one {a : Value w n} (ha : a.val ≠ 0) : log2N a + 1 = a.val.size := by
  have hclz := clzN_add_size a
  have hpos := Nat.pos_of_ne_zero (mt Nat.size_eq_zero.1 ha)
  rw [log2N]
  omega

/-- `Log2N` is the index of the highest set bit. -/
theorem log2N_spec {a : Value w n} (ha : a.val ≠ 0) :
    log2N a < n * w ∧ 2 ^ log2N a ≤ a.val ∧ a.val < 2 ^ (log2N a + 1) := by
  have hlog := log2N_add_one ha
  have hclz := clzN_add_size a
  refine ⟨by omega, Nat.lt_size.1 (by omega), ?_⟩
  rw [hlog]
  exact Nat.lt_size_self _

/-! ### The next power of two (R264) -/

/-- `2^k` is the least power of two at or above `v`. -/
def IsNextPowerOfTwo (v k : Nat) : Prop := v ≤ 2 ^ k ∧ ∀ j, v ≤ 2 ^ j → k ≤ j

theorem isNextPowerOfTwo_zero : IsNextPowerOfTwo 0 0 := ⟨Nat.zero_le _, fun j _ => Nat.zero_le j⟩

theorem isNextPowerOfTwo_two_pow (k : Nat) : IsNextPowerOfTwo (2 ^ k) k :=
  ⟨le_rfl, fun _ => (Nat.pow_le_pow_iff_right one_lt_two).1⟩

/-- Above a number that is no power of two, the next one has the bit length as its exponent. -/
theorem isNextPowerOfTwo_size {v : Nat} (hv : ¬∃ j, v = 2 ^ j) : IsNextPowerOfTwo v v.size :=
  ⟨(Nat.lt_size_self v).le, fun j hj => Nat.size_le.2 (lt_of_le_of_ne hj fun h => hv ⟨j, h⟩)⟩

/-- The value with one bit set: digit `k div W` is `2^(k mod W)`, the others 0. -/
theorem valueOfFn_bit_eq_dig {k : Nat} (hk : k < n * w) :
    valueOfFn n (fun i => if i = k / w then BitVec.ofNat w (2 ^ (k % w)) else 0) = dig w n (2 ^ k) :=
  value_ext_testBit fun b hb => by
    obtain ⟨p, q, hp, hq, rfl⟩ := exists_digit_bit hk
    obtain ⟨i, j, hi, hj, rfl⟩ := exists_digit_bit hb
    have hw : 0 < w := Nat.pos_of_lt_mul_left hk
    rw [testBit_valueOfFn _ hi hj, testBit_dig hb, Nat.testBit_two_pow, Nat.mul_add_div hw, Nat.div_eq_of_lt hq,
      Nat.add_zero, Nat.mul_add_mod, Nat.mod_eq_of_lt hq]
    split
    · next hip =>
      subst hip
      rw [BitVec.getLsbD_ofNat, Nat.testBit_two_pow, decide_eq_true hj, Bool.true_and]
      simp
    · next hip =>
      have hne : w * p + q ≠ w * i + j := fun heq => hip <| by
        simpa [Nat.mul_add_div hw, Nat.div_eq_of_lt hq, Nat.div_eq_of_lt hj] using (congrArg (· / w) heq).symm
      rw [decide_eq_false hne]
      exact BitVec.getLsbD_zero

/-- `NpotN` keeps the next power of two modulo `2^BITS` and tells whether it is `2^BITS` or more. -/
theorem npotN_spec (hw : 0 < w) (hn : 0 < n) (a : Value w n) :
    ∃ k, IsNextPowerOfTwo a.val k ∧ npotN a = (dig w n (2 ^ k), decide (2 ^ (n * w) ≤ 2 ^ k)) := by
  have hfits {k : Nat} (hk : k < n * w) : decide (2 ^ (n * w) ≤ 2 ^ k) = false :=
    decide_eq_false (Nat.not_le.2 (Nat.pow_lt_pow_right one_lt_two hk))
  have hsize : n * w - clzN a = a.val.size := bitLenN_eq_size a
  rw [npotN]
  split
  · next hzero =>
    refine ⟨0, (isZeroN_iff_val a).1 hzero ▸ isNextPowerOfTwo_zero, ?_⟩
    rw [hfits (Nat.mul_pos hn hw), pow_zero, ← val_oneV hw hn, dig_val]
  · split
    · next hpow =>
      obtain ⟨k, hk⟩ := (isPow2N_iff_val a).1 hpow
      have hlt : k < n * w := (Nat.pow_lt_pow_iff_right one_lt_two).1 (hk ▸ val_lt a)
      exact ⟨k, hk ▸ isNextPowerOfTwo_two_pow k, by rw [hfits hlt, ← hk, dig_val]⟩
    · next hpow =>
      refine ⟨a.val.size, isNextPowerOfTwo_size (mt (isPow2N_iff_val a).2 hpow), ?_⟩
      simp only [hsize]
      split
      · next htop => rw [htop, zeroV_eq_dig, decide_eq_true le_rfl, ← dig_mod w n (2 ^ (n * w)), Nat.mod_self]
      · next htop =>
        have hlt : a.val.size < n * w := lt_of_le_of_ne (Nat.size_le.2 (val_lt a)) htop
        rw [hfits hlt, valueOfFn_bit_eq_dig hlt]

end

/-! ### The commands -/

theorem exec_log2C_of_ne_zero {s : State} (xr : Reg) {a : Reg} (ha : uA s a ≠ 0) :
    exec (.log2C xr a) s =
      .next (wroteX s xr (BitVec.ofNat 32 (log2N (s.reg a))) (putNone false s.flags)) :=
  congrArg Host.Outcome.next (if_neg (mt (isZeroN_iff_val _).1 ha))

theorem exec_log2_of_ne_zero {s : State} (xr : Reg) {a : Reg} (ha : uA s a ≠ 0) :
    exec (.log2 xr a) s = .next (wroteX s xr (BitVec.ofNat 32 (log2N (s.reg a))) s.flags) :=
  congrArg Host.Outcome.next (if_neg (mt (isZeroN_iff_val _).1 ha))

theorem exec_log2C_of_zero {s : State} (xr : Reg) {a : Reg} (ha : uA s a = 0) :
    exec (.log2C xr a) s = .next (wroteF s (putNone true s.flags)) :=
  congrArg Host.Outcome.next (if_pos ((isZeroN_iff_val _).2 ha))

theorem exec_log2_of_zero {s : State} (xr : Reg) {a : Reg} (ha : uA s a = 0) :
    exec (.log2 xr a) s = .next (faulted s .logZero) :=
  (congrArg Host.Outcome.next (if_pos ((isZeroN_iff_val _).2 ha))).trans (by rw [State.raise_eq_faulted])

/-! ### The obligations -/

/-- Settles O56: the datapath's GCD is that of the numbers. -/
theorem greatestCommonDivisor : Obligations.GreatestCommonDivisor := by
  intro s rd a b
  rw [num, dig_mod, ← gcdN_eq_dig]
  exact congrArg Host.Outcome.next (s.setReg_done_eq_wroteV rd _)

/-- Settles O57: the logarithm is one less than the bit length, and the zero test comes first in both forms. -/
theorem binaryLogarithm : Obligations.BinaryLogarithm := by
  intro s xr a
  refine ⟨fun ha => ?_, fun ha => ⟨exec_log2C_of_zero xr ha, exec_log2_of_zero xr ha⟩⟩
  obtain ⟨hlt, hle, hgt⟩ := log2N_spec ha
  exact ⟨log2N (s.reg a), hlt, hle, hgt, exec_log2C_of_ne_zero xr ha, exec_log2_of_ne_zero xr ha⟩

/-- Settles O58: the exponent of the datapath's next power of two, delivered in the four forms. -/
theorem nextPowerOfTwo : Obligations.NextPowerOfTwo := by
  intro s rd a
  obtain ⟨k, ⟨hle, hleast⟩, hnpot⟩ := npotN_spec (w_pos s.inst) s.inst.count_ok (s.reg a)
  have hwrapped : (npotTriple (s.reg a)).wrapped = num s (2 ^ k) := by rw [npotTriple, hnpot, num, dig_mod]
  have hoverflow : (npotTriple (s.reg a)).overflow = decide (mN s ≤ 2 ^ k) := by rw [npotTriple, hnpot]
  refine ⟨k, hle, hleast, ?_⟩
  rw [← hwrapped]
  exact fourForms_of_deliver hoverflow rfl rfl rfl rfl

end Sys2Proof.Machine

/-! Family `49_twos_complement.md`: the two's-complement layer. The negator wraps the negated signed reading, which
leaves the signed range for `SMIN` alone; `NEG` and `ABS` deliver the negation and the magnitude with that one
overflow. -/

namespace Sys2Proof.Machine

open Sys2Proof.Claims

section
variable {w n : Nat}

/-! ### The negator (R281) -/

/-- The complement plus one, with the one as an operand or as the carry in, is one addition. -/
theorem addN_notN_zeroV_true (a : Value w n) : (addN (notN a) (zeroV w n) true).1 = dig w n ((notN a).val + 1) := by
  have h := addN_exact (notN a) (zeroV w n) true
  rw [val_zeroV, Nat.add_zero, Bool.toNat_true] at h
  rw [eq_dig_iff, ← h, Nat.add_mul_mod_self_left, Nat.mod_eq_of_lt (val_lt _)]

theorem negN_eq_dig_notN (hw : 0 < w) (hn : 0 < n) (a : Value w n) : negN a = dig w n ((notN a).val + 1) := by
  rw [negN, addN_eq_dig, val_oneV hw hn]

/-- The number of the negated value. -/
theorem val_negN (hw : 0 < w) (hn : 0 < n) (a : Value w n) :
    (negN a).val = (2 ^ (n * w) - a.val) % 2 ^ (n * w) := by
  have hnot := val_notN a
  rw [negN_eq_dig_notN hw hn, val_dig]
  congr 1
  omega

/-- The increment of the complement carries out for `ZERO` alone. -/
theorem negN_carry_iff (hw : 0 < w) (hn : 0 < n) (a : Value w n) :
    (addN (notN a) (oneV w n) false).2 = true ↔ a = zeroV w n := by
  have hnot := val_notN a
  rw [addN_carry, val_oneV hw hn, decide_eq_true_iff, ← val_inj, val_zeroV]
  omega

/-- The negator wraps the negated signed reading. -/
theorem negN_eq_sdig_neg_sval (hw : 0 < w) (hn : 0 < n) (a : Value w n) : negN a = sdig w n (-sval a) := by
  rw [negN_eq_sdig hw hn]
  exact sdig_congr (sval_modEq_val a).symm.neg

/-- `SMIN` is the value with the least signed reading. -/
theorem eq_sminV_iff_sval (hw : 0 < w) (hn : 0 < n) (a : Value w n) :
    a = sminV w n ↔ sval a = -((2 ^ (n * w - 1) : Nat) : Int) := by
  rw [← sdig_neg_half hw hn, eq_sdig_iff_sval hw hn a (by have := Nat.two_pow_pos (n * w - 1); omega)]

/-- The negation of a signed reading leaves the signed range for `SMIN` alone. -/
theorem sval_negN (hw : 0 < w) (hn : 0 < n) {a : Value w n} (ha : a ≠ sminV w n) : sval (negN a) = -sval a := by
  have hin := not_outOfSigned_sval hw hn a
  have hne := mt (eq_sminV_iff_sval hw hn a).2 ha
  rw [negN_eq_sdig_neg_sval hw hn, sval_sdig hw hn (by omega)]

theorem negN_zeroV (hw : 0 < w) (hn : 0 < n) : negN (zeroV w n) = zeroV w n := by
  rw [negN_eq_sdig hw hn, val_zeroV, Nat.cast_zero, neg_zero, ← Nat.cast_zero, sdig_natCast, zeroV_eq_dig]

/-- Negation undoes itself, for `SMIN` too. -/
theorem negN_negN (hw : 0 < w) (hn : 0 < n) (a : Value w n) : negN (negN a) = a := by
  rw [negN_eq_sdig_neg_sval hw hn (negN a), eq_comm, eq_sdig_iff, negN_eq_sdig_neg_sval hw hn a]
  have hneg := (sval_sdig_modEq (w := w) (n := n) (-sval a)).neg
  rw [neg_neg] at hneg
  exact (hneg.trans (sval_modEq_val a)).symm

/-- Subtraction adds the negation. -/
theorem subN_eq_addN_negN (hw : 0 < w) (hn : 0 < n) (a b : Value w n) :
    (subN a b).1 = (addN a (negN b) false).1 := by
  rw [addN_of_modEq (v := -sval b) rfl (negN_eq_sdig_neg_sval hw hn b ▸ sval_sdig_modEq _), subN_eq_sdig_sval,
    sub_eq_add_neg]

theorem subN_self (a : Value w n) : (subN a a).1 = zeroV w n := by
  rw [subN_eq_sdig, sub_self, ← Nat.cast_zero, sdig_natCast, zeroV_eq_dig]

/-! ### The magnitude (R285) -/

theorem uabs_eq_sdig_abs (hw : 0 < w) (hn : 0 < n) (a : Value w n) : uabs a = sdig w n |sval a| := by
  rw [eq_sdig_iff, val_uabs hw hn]

/-- The magnitude has the sign bit set for `SMIN` alone. -/
theorem sign_uabs_iff (hw : 0 < w) (hn : 0 < n) (a : Value w n) : sign (uabs a) = true ↔ a = sminV w n := by
  have hin := not_outOfSigned_sval hw hn a
  have hval := val_uabs hw hn a
  rw [sign_iff_half_le hw hn, eq_sminV_iff_sval hw hn]
  obtain hneg | hpos := lt_or_ge (sval a) 0
  · rw [abs_of_neg hneg] at hval
    omega
  · rw [abs_of_nonneg hpos] at hval
    omega

end

/-! ### The commands -/

/-- `NEG.W` delivers the bare negator. -/
theorem exec_negW_eq_wroteV (s : State) (rd a : Reg) :
    exec (.negW rd a) s = .next (wroteV s rd (negN (s.reg a)) s.flags) := rfl

theorem exec_negWS_eq_wroteV (s : State) (rd a : Reg) :
    exec (.negWS rd a) s = .next (wroteV s rd (negN (s.reg a)) s.flags) := rfl

theorem exec_absWS_eq_wroteV (s : State) (rd a : Reg) :
    exec (.absWS rd a) s = .next (wroteV s rd (uabs (s.reg a)) s.flags) := rfl

theorem exec_addW_eq_wroteV (s : State) (rd a b : Reg) :
    exec (.addW rd a b) s = .next (wroteV s rd (addN (s.reg a) (s.reg b) false).1 s.flags) := rfl

theorem exec_subW_eq_wroteV (s : State) (rd a b : Reg) :
    exec (.subW rd a b) s = .next (wroteV s rd (subN (s.reg a) (s.reg b)).1 s.flags) := rfl

theorem State.reg_wroteV_ne (s : State) {rd r : Reg} (h : r ≠ rd) (a : Value s.inst.w s.inst.n) (f : Word) :
    (wroteV s rd a f).reg r = s.reg r :=
  s.reg_setReg_ne h a

/-- The test for `SMIN` is the test of the signed reading that the statements make. -/
theorem eqN_sminV_eq_decide (s : State) (a : Reg) :
    eqN (s.reg a) (sminV s.inst.w s.inst.n) = decide (sA s a = -(hN s : Int)) := by
  rw [Bool.eq_iff_iff, eqN_iff_eq, decide_eq_true_iff]
  exact eq_sminV_iff_sval (w_pos s.inst) s.inst.count_ok _

theorem smaxV_eq_snum (s : State) : smaxV s.inst.w s.inst.n = snum s ((hN s : Int) - 1) := by
  rw [snum_eq_sdig, sdig_half_sub_one (w_pos s.inst) s.inst.count_ok]

/-- Signed `NEG` in its five forms, by patterns. -/
theorem fiveForms_neg (s : State) (rd a : Reg) :
    FiveForms s rd (negN (s.reg a)) (sA s a = -(hN s : Int)) (snum s ((hN s : Int) - 1))
      (.negWS rd a) (.negCS rd a) (.negOS rd a) (.negSatS rd a) (.negS rd a) :=
  fiveForms_of_deliver (x := negSignedTriple (s.reg a)) (eqN_sminV_eq_decide s a) (fun _ => smaxV_eq_snum s)
    rfl rfl rfl rfl rfl

/-- Signed `ABS` in its five forms, by patterns. -/
theorem fiveForms_abs (s : State) (rd a : Reg) :
    FiveForms s rd (uabs (s.reg a)) (sA s a = -(hN s : Int)) (snum s ((hN s : Int) - 1))
      (.absWS rd a) (.absCS rd a) (.absOS rd a) (.absSatS rd a) (.absS rd a) :=
  fiveForms_of_deliver (x := absSignedTriple (s.reg a)) (eqN_sminV_eq_decide s a) (fun _ => smaxV_eq_snum s)
    rfl rfl rfl rfl rfl

/-- A negation into `rd` and an addition of it to another register: the second operand of the addition is the negated
value, the first one is as it was. -/
theorem execList_negW_addW {s : State} {rd a : Reg} (h : rd ≠ a) (b : Reg) :
    execList [.negW rd b, .addW rd a rd] s =
      .next (leavesV 2 s rd (addN (s.reg a) (negN (s.reg b)) false).1) := by
  refine execList_pair_eq_leavesV (fun x => (addN (s.reg a) x false).1) (exec_negW_eq_wroteV s rd b) ?_ rfl
  rw [exec_addW_eq_wroteV, State.reg_wroteV_ne s h.symm]
  rfl

/-! ### The obligations -/

/-- Settles O52: the two renderings of the increment are one addition, and the rest is the negator's number. -/
theorem negatorIsExact : Obligations.NegatorIsExact := by
  intro i a
  have hw := w_pos i
  have hn : 0 < i.n := i.count_ok
  exact ⟨rfl, (negN_eq_dig_notN hw hn a).trans (addN_notN_zeroV_true a).symm, val_negN hw hn a, sval_negN hw hn,
    negN_sminV hw hn, negN_zeroV hw hn, negN_carry_iff hw hn a⟩

/-- Settles O54: the patterns `NEG` and `ABS` deliver are the negated and the absolute signed reading, wrapped. -/
theorem negateAndAbsolute : Obligations.NegateAndAbsolute := by
  intro s rd a
  have hw := w_pos s.inst
  have hn : 0 < s.inst.n := s.inst.count_ok
  have hnum : negN (s.reg a) = num s (mN s - uA s a) := by
    rw [num, dig_mod, eq_dig_iff]
    exact val_negN hw hn _
  rw [snum_eq_sdig s (-sA s a), snum_eq_sdig s |sA s a|, ← negN_eq_sdig_neg_sval hw hn, ← uabs_eq_sdig_abs hw hn,
    ← hnum]
  exact ⟨exec_negW_eq_wroteV s rd a, fiveForms_neg s rd a, fiveForms_abs s rd a⟩

/-- Settles O55: the laws of the negator and of the magnitude, under the delivery of each command. -/
theorem twosComplementLaws : Obligations.TwosComplementLaws := by
  intro s rd a b
  have hw := w_pos s.inst
  have hn : 0 < s.inst.n := s.inst.count_ok
  have hsmin := eq_sminV_iff_sval hw hn (s.reg a)
  refine ⟨?undo, fun h => ?zero, fun h => ?sub, ?abs, ?overflow⟩
  case undo =>
    exact execList_pair_eq_leavesV negN (exec_negWS_eq_wroteV s rd a) (exec_negWS_eq_wroteV _ rd rd)
      (negN_negN hw hn _)
  case zero => rw [execList_negW_addW h, ← subN_eq_addN_negN hw hn, subN_self]
  case sub =>
    exact ⟨_, exec_subW_eq_wroteV s rd a b, by rw [execList_negW_addW h, ← subN_eq_addN_negN hw hn]⟩
  case abs => exact ⟨_, exec_absWS_eq_wroteV s rd a, sign_uabs_iff hw hn _⟩
  case overflow =>
    obtain ⟨⟨-, -, -, hneg, -⟩, -⟩ := fiveForms_neg s rd a
    obtain ⟨⟨-, -, -, habs, -⟩, -⟩ := fiveForms_abs s rd a
    simp only [List.forall_mem_cons, List.not_mem_nil, false_implies, implies_true, and_true]
    exact ⟨⟨_, _, hneg, decide_eq_true_iff.trans hsmin.symm⟩, _, _, habs, decide_eq_true_iff.trans hsmin.symm⟩

end Sys2Proof.Machine

/-! Family `60_exceptions.md`: fault entry, rejection and return. Said once for every command: it either enters a
fault, and would with the same cause whatever stands in `FAULT`, `FCMD`, the host's moves and its record, or it answers
`OK`. What a faulting step has recorded, and that it faults again after `FCLR`, are read off that. -/

namespace Sys2Proof.Machine

open Sys2Proof.Claims

/-! ### The outcome of a command (R302, R304) -/

/-- The state with another fault record and with other moves and responses of the host: nothing that decides whether
a command faults. -/
def State.rerecorded (s : State) (fault fcmd : Word) (inputs : List (HostMove s.inst.w))
    (responses : List (Response s.inst.w)) : State :=
  { s with fault := fault, fcmd := fcmd, inputs := inputs, responses := responses }

/-- The state of a command answered `OK`: registers, `FLAGS` and the fault record may be written, data may be answered,
and the rest is as it was. -/
def State.completed (s : State) (v : Vector (Value s.inst.w s.inst.n) 8) (x : Vector Word 8)
    (flags fault fcmd : Word) (d : BitVec s.inst.w) (e : Word) : State :=
  { s with v := v, x := x, flags := flags, fault := fault, fcmd := fcmd, responses := ⟨.ok, d, e⟩ :: s.responses }

/-- A command that goes from `s` to `t` and from `s'` to `t'` enters a fault with one cause from both, or it is answered
`OK`. -/
def RaisesOrAnswers (s t s' t' : State) : Prop :=
  (∃ c, t = s.raise c ∧ t' = s'.raise c) ∨
    ∃ v x flags fault fcmd d e, t = s.completed v x flags fault fcmd d e

section
variable (s s' t' : State)

theorem raisesOrAnswers_raise (c : Cause) : RaisesOrAnswers s (s.raise c) s' (s'.raise c) := .inl ⟨c, rfl, rfl⟩

theorem raisesOrAnswers_respond_ok (d : BitVec s.inst.w) (e : Word) :
    RaisesOrAnswers s (s.respond ⟨.ok, d, e⟩) s' t' :=
  .inr ⟨s.v, s.x, s.flags, s.fault, s.fcmd, d, e, rfl⟩

theorem raisesOrAnswers_done : RaisesOrAnswers s s.done s' t' := raisesOrAnswers_respond_ok s s' t' 0 0

theorem raisesOrAnswers_clearFault_done : RaisesOrAnswers s s.clearFault.done s' t' :=
  .inr ⟨s.v, s.x, s.flags, 0, 0, 0, 0, rfl⟩

theorem raisesOrAnswers_setReg_done (r : Reg) (a : Value s.inst.w s.inst.n) :
    RaisesOrAnswers s (s.setReg r a).done s' t' :=
  .inr ⟨s.v.set r a, s.x, s.flags, s.fault, s.fcmd, 0, 0, rfl⟩

theorem raisesOrAnswers_setExpo_done (r : Reg) (e : Word) : RaisesOrAnswers s (s.setExpo r e).done s' t' :=
  .inr ⟨s.v, s.x.set r e, s.flags, s.fault, s.fcmd, 0, 0, rfl⟩

theorem raisesOrAnswers_setFlags_done (f : Word) : RaisesOrAnswers s (s.setFlags f).done s' t' :=
  .inr ⟨s.v, s.x, f, s.fault, s.fcmd, 0, 0, rfl⟩

theorem raisesOrAnswers_setReg_setFlags_done (r : Reg) (a : Value s.inst.w s.inst.n) (f : Word) :
    RaisesOrAnswers s ((s.setReg r a).setFlags f).done s' t' :=
  .inr ⟨s.v.set r a, s.x, f, s.fault, s.fcmd, 0, 0, rfl⟩

theorem raisesOrAnswers_writeLog2_setFlags_done (xr a : Reg) (f : Word) :
    RaisesOrAnswers s ((s.writeLog2 xr a).setFlags f).done s' t' :=
  .inr ⟨s.v, s.x.set xr _, f, s.fault, s.fcmd, 0, 0, rfl⟩

end

/-- A command that branches on the same condition from both states. -/
theorem raisesOrAnswers_ite {s s' t u t' u' : State} {c : Prop} [Decidable c]
    (ht : RaisesOrAnswers s t s' t') (hu : RaisesOrAnswers s u s' u') :
    RaisesOrAnswers s (if c then t else u) s' (if c then t' else u') := by
  split
  · exact ht
  · exact hu

section
variable (s : State) (fault fcmd : Word) (inputs : List (HostMove s.inst.w)) (responses : List (Response s.inst.w))

theorem raisesOrAnswers_deliver (var : Variant) (rd : Reg) (x : Triple s.inst.w s.inst.n) :
    RaisesOrAnswers s (s.deliver var rd x) (s.rerecorded fault fcmd inputs responses)
      ((s.rerecorded fault fcmd inputs responses).deliver var rd x) := by
  cases var with
  | wrapping => exact raisesOrAnswers_setReg_done s _ _ rd _
  | checked =>
    exact raisesOrAnswers_ite (raisesOrAnswers_setFlags_done s _ _ _)
      (raisesOrAnswers_setReg_setFlags_done s _ _ rd _ _)
  | overflowing => exact raisesOrAnswers_setReg_setFlags_done s _ _ rd _ _
  | saturating => exact raisesOrAnswers_setReg_done s _ _ rd _
  | panicking =>
    exact raisesOrAnswers_ite (raisesOrAnswers_raise s _ .overflow) (raisesOrAnswers_setReg_done s _ _ rd _)

theorem raisesOrAnswers_divideByZero (var : Variant) :
    RaisesOrAnswers s (s.divideByZero var) (s.rerecorded fault fcmd inputs responses)
      ((s.rerecorded fault fcmd inputs responses).divideByZero var) := by
  cases var with
  | checked => exact raisesOrAnswers_setFlags_done s _ _ _
  | wrapping | overflowing | saturating | panicking => exact raisesOrAnswers_raise s _ .divZero

theorem raisesOrAnswers_deliverDivision (var : Variant) (rd : Reg) (d : Value s.inst.w s.inst.n)
    (x : Triple s.inst.w s.inst.n) :
    RaisesOrAnswers s (s.deliverDivision var rd d x) (s.rerecorded fault fcmd inputs responses)
      ((s.rerecorded fault fcmd inputs responses).deliverDivision var rd d x) :=
  raisesOrAnswers_ite (raisesOrAnswers_divideByZero s _ _ _ _ var) (raisesOrAnswers_deliver s _ _ _ _ var rd x)

end

/-- The seven numbers of R29 name a control register in every state. -/
theorem State.exists_csr (s : State) {idx : DigitIdx} (h : idx.toNat ≤ 6) : ∃ c, s.csr idx = some c := by
  rw [State.csr]
  generalize idx.toNat = k at h
  interval_cases k <;> exact ⟨_, rfl⟩

/-- No other number does. -/
theorem State.csr_eq_none (s : State) {idx : DigitIdx} (h : 6 < idx.toNat) : s.csr idx = none := by
  rw [State.csr]
  generalize idx.toNat = k at h
  obtain ⟨j, rfl⟩ : ∃ j, k = j + 7 := ⟨k - 7, by omega⟩
  rfl

/-- Every command ends in a next state, also with another record and other moves, and its outcome is one of the two.
The last case holds the commands that deliver under a variant. -/
theorem exec_raisesOrAnswers (i : Instr) (s : State) (fault fcmd : Word) (inputs : List (HostMove s.inst.w))
    (responses : List (Response s.inst.w)) :
    ∃ t t', exec i s = .next t ∧ exec i (s.rerecorded fault fcmd inputs responses) = .next t' ∧
      RaisesOrAnswers s t (s.rerecorded fault fcmd inputs responses) t' := by
  cases i with
  | nop => exact ⟨_, _, rfl, rfl, raisesOrAnswers_done s _ _⟩
  | fclr => exact ⟨_, _, rfl, rfl, raisesOrAnswers_clearFault_done s _ _⟩
  | ldd r idx =>
    exact ⟨_, _, rfl, rfl, raisesOrAnswers_ite (raisesOrAnswers_setReg_done s _ _ r _)
      (raisesOrAnswers_raise s _ .index)⟩
  | std r idx =>
    exact ⟨_, _, rfl, rfl, raisesOrAnswers_ite (raisesOrAnswers_respond_ok s _ _ _ 0)
      (raisesOrAnswers_raise s _ .index)⟩
  | stx xr => exact ⟨_, _, rfl, rfl, raisesOrAnswers_respond_ok s _ _ 0 _⟩
  | rcs idx =>
    obtain h | h := Nat.lt_or_ge 6 idx.toNat
    · exact ⟨_, _, exec_rcs_of_no_csr (s.csr_eq_none h),
        exec_rcs_of_no_csr (State.csr_eq_none (s.rerecorded fault fcmd inputs responses) h),
        raisesOrAnswers_raise s _ .illegal⟩
    · obtain ⟨c, hc⟩ := s.exists_csr h
      obtain ⟨c', hc'⟩ := State.exists_csr (s.rerecorded fault fcmd inputs responses) h
      exact ⟨_, _, exec_rcs_of_csr hc, exec_rcs_of_csr hc', raisesOrAnswers_respond_ok s _ _ 0 c⟩
  | bit rs1 xr =>
    exact ⟨_, _, rfl, rfl, raisesOrAnswers_ite (raisesOrAnswers_raise s _ .index)
      (raisesOrAnswers_setFlags_done s _ _ _)⟩
  | log2C xr rs1 =>
    exact ⟨_, _, rfl, rfl, raisesOrAnswers_ite (raisesOrAnswers_setFlags_done s _ _ _)
      (raisesOrAnswers_writeLog2_setFlags_done s _ _ xr rs1 _)⟩
  | log2 xr rs1 =>
    exact ⟨_, _, rfl, rfl, raisesOrAnswers_ite (raisesOrAnswers_raise s _ .logZero)
      (raisesOrAnswers_setExpo_done s _ _ xr _)⟩
  | mov | lds | rotl | rotr | swapb | revb | not | gcd =>
    exact ⟨_, _, rfl, rfl, raisesOrAnswers_setReg_done s _ _ _ _⟩
  | ldx | blen | clz | ctz | clo | cto | cnt1 | cnt0 =>
    exact ⟨_, _, rfl, rfl, raisesOrAnswers_setExpo_done s _ _ _ _⟩
  | cmp | cmpS | eq | isz | isone | isp2 | isneg => exact ⟨_, _, rfl, rfl, raisesOrAnswers_setFlags_done s _ _ _⟩
  | divW | divC | divO | divSat | div | divWS | divCS | divOS | divSatS | divS
  | remW | remC | remO | rem | remWS | remCS | remOS | remS
  | diveW | diveC | diveO | diveSat | dive | diveWS | diveCS | diveOS | diveSatS | diveS
  | remeW | remeC | remeO | reme | remeWS | remeCS | remeOS | remeS =>
    exact ⟨_, _, rfl, rfl, raisesOrAnswers_deliverDivision s _ _ _ _ _ _ _ _⟩
  | _ => exact ⟨_, _, rfl, rfl, raisesOrAnswers_deliver s _ _ _ _ _ _ _⟩

/-! ### Which words execute (R80, R306) -/

/-- The test on the low byte is the statements' test. -/
theorem runsWhileFaulted_iff (cmd : Word) : runsWhileFaulted cmd = true ↔ rcsOrFclr cmd := by
  rw [runsWhileFaulted, Bool.or_eq_true, beq_iff_eq, beq_iff_eq, ← BitVec.toNat_inj, ← BitVec.toNat_inj, opField,
    BitVec.extractLsb'_toNat, Nat.shiftRight_zero]
  rfl

/-- The low byte of a command's word is its opcode (R72). -/
theorem opField_encode (i : Instr) : opField (encode i) = Laws.opcodeOf i := by
  cases i <;> simp [encode, Laws.opcodeOf]

/-- The opcodes 7 and 8 are those of `RCS` and `FCLR`. -/
theorem eq_rcs_or_fclr_of_rcsOrFclr {i : Instr} (h : rcsOrFclr (encode i)) : (∃ idx, i = .rcs idx) ∨ i = .fclr := by
  rw [← runsWhileFaulted_iff, runsWhileFaulted, opField_encode] at h
  cases i with
  | rcs idx => exact .inl ⟨idx, rfl⟩
  | fclr => exact .inr rfl
  | _ => simp [Laws.opcodeOf] at h

section
variable {s : State}

/-- A word that is not rejected and decodes is executed (R312). -/
theorem transact_of_executed {i : Instr} (h : s.faultOutput = false ∨ rcsOrFclr s.request.cmd)
    (hi : decode s.request.cmd = .ok i) : transact s = exec i s := by
  rw [← runsWhileFaulted_iff] at h
  obtain h | h := h <;> simp [transact, h, hi]

/-- A word that is not rejected and does not decode raises `Illegal` (R80, R307). -/
theorem transact_of_malformed {e : Illegal} (h : s.faultOutput = false ∨ rcsOrFclr s.request.cmd)
    (he : decode s.request.cmd = .error e) : transact s = .next (s.raise .illegal) := by
  rw [← runsWhileFaulted_iff] at h
  obtain h | h := h <;> simp [transact, h, he]

theorem transact_of_rejected (hs : s.faultOutput = true) (h : ¬rcsOrFclr s.request.cmd) :
    transact s = .next s.reject := by
  rw [← runsWhileFaulted_iff] at h
  simp [transact, hs, h]

/-- `FCLR` clears the fault record whether or not a fault is active (R128). -/
theorem transact_fclr (h : s.request.cmd = 0x00000008) : transact s = .next s.clearFault.done :=
  transact_of_executed (i := .fclr) (.inr (.inr (by rw [h]; rfl))) (by rw [h]; decide)

/-- A transaction answered `FAULT` has entered a fault, and enters it again with the same cause from a state without
an active fault that differs in the record and the host's moves only. -/
theorem transact_of_fault {t : State} (h : transact s = .next t) (ht : lastStatus t = some .fault) {fault : Word}
    (hfault : faultActive fault = false) (fcmd : Word) (inputs : List (HostMove s.inst.w))
    (responses : List (Response s.inst.w)) :
    ∃ c, t = s.raise c ∧ transact (s.rerecorded fault fcmd inputs responses) =
      .next ((s.rerecorded fault fcmd inputs responses).raise c) := by
  obtain ⟨-, -, hrej⟩ | ⟨-, ⟨e, he, hill⟩ | ⟨i, hi, hexec⟩⟩ := transact_cases s
  · rw [hrej] at h
    cases h
    cases ht
  · rw [hill] at h
    cases h
    exact ⟨.illegal, rfl, transact_of_malformed (s := s.rerecorded fault fcmd inputs responses) (.inl hfault) he⟩
  · obtain ⟨u, u', hu, hu', ⟨c, rfl, rfl⟩ | ⟨v, x, flags, fault', fcmd', d, w, rfl⟩⟩ :=
      exec_raisesOrAnswers i s fault fcmd inputs responses <;> rw [hexec, hu] at h <;> cases h
    · have hexec' := transact_of_executed (s := s.rerecorded fault fcmd inputs responses) (.inl hfault) hi
      exact ⟨c, rfl, hexec'.trans hu'⟩
    · cases ht

end

/-- What a command answered `FAULT` and then `FCLR` leave: the registers as they were, and no fault (R308). -/
def State.faultedAndCleared (s : State) (clr : Request s.inst.w) (inputs : List (HostMove s.inst.w)) : State :=
  { s with
    inputs := inputs
    request := clr
    fault := 0
    fcmd := 0
    responses := okResponse _ :: ⟨.fault, 0, 0⟩ :: s.responses }

/-! ### The obligations -/

/-- Settles O4: the step is the transaction, and the word is not rejected. -/
theorem stepRunsDecodedCommand : Obligations.StepRunsDecodedCommand := by
  intro s req rest i hin hi hs
  exact (step_of_command hin).trans (transact_of_executed (s := taken s req rest) hs hi)

/-- Settles O6: rejection, or the command of the word, by the test on the low byte. -/
theorem rejectionWhileFaultActive : Obligations.RejectionWhileFaultActive := by
  intro s req rest hin hs
  exact ⟨fun h => (step_of_command hin).trans (transact_of_rejected (s := taken s req rest) hs h),
    fun h i hi => (step_of_command hin).trans (transact_of_executed (s := taken s req rest) (.inr h) hi)⟩

/-- Settles O7: a malformed word enters the fault again; a well-formed one is `RCS` of a register that exists, or
`FCLR`, and neither faults. -/
theorem malformedWhileFaultActive : Obligations.MalformedWhileFaultActive := by
  intro s req rest hin hs
  have hstep : step s = transact (taken s req rest) := step_of_command hin
  rw [hstep]
  refine ⟨fun h => ?rejected, fun h hno => ?malformed, fun h i hwf henc => ?wellFormed, fun h => ?cleared⟩
  case rejected => exact ⟨_, transact_of_rejected hs h, rfl⟩
  case malformed =>
    obtain ⟨e, he⟩ := decode_error_of_no_command hno
    rw [← State.raise_eq_faulted]
    exact ⟨transact_of_malformed (.inr h) he, State.faultOutput_raise _ _⟩
  case wellFormed =>
    have hi : decode req.cmd = .ok i := henc ▸ encodedCommandDecodesBack i hwf
    rw [transact_of_executed (s := taken s req rest) (.inr h) hi]
    obtain ⟨idx, rfl⟩ | rfl := eq_rcs_or_fclr_of_rcsOrFclr (henc ▸ h)
    · obtain ⟨c, hc⟩ := State.exists_csr (taken s req rest) (of_decide_eq_true hwf)
      exact ⟨_, exec_rcs_of_csr hc, rfl⟩
    · exact ⟨_, rfl, rfl⟩
  case cleared => exact transact_fclr h

/-- Settles O8: a step answered `FAULT` is a fault entry. -/
theorem faultEntry : Obligations.FaultEntry := by
  intro s t req rest hin hstep ht
  obtain ⟨c, rfl, -⟩ := transact_of_fault ((step_of_command hin).symm.trans hstep) ht faultActive_zero 0 [] []
  exact ⟨c, State.raise_eq_faulted (taken s req rest) c, State.faultOutput_raise _ c, faultCause_faultWord c⟩

/-- Settles O9: after `FCLR` the state differs from the one the command faulted from in the record and the moves only,
so the command faults again with the same cause. -/
theorem faultThenClearRestoresNothing : Obligations.FaultThenClearRestoresNothing := by
  intro s t req clr rest hin _ hclr hstep ht
  obtain ⟨c, rfl, hagain⟩ := transact_of_fault ((step_of_command hin).symm.trans hstep) ht faultActive_zero 0 rest
    (okResponse _ :: ⟨.fault, 0, 0⟩ :: s.responses)
  have hclear : step (State.raise (taken s req (.command clr :: .command req :: rest)) c) =
      .next (s.faultedAndCleared clr (.command req :: rest)) :=
    (step_of_command rfl).trans (transact_fclr hclr)
  have hrefault : step (s.faultedAndCleared clr (.command req :: rest)) = _ := (step_of_command rfl).trans hagain
  have hrun : core.run 2 s = .next (s.faultedAndCleared clr (.command req :: rest)) :=
    (run_succ_of_step (M := core) 1 hstep).trans (run_succ_of_step (M := core) 0 hclear)
  have hrun' := (run_add_of_run (M := core) 2 1 hrun).trans (run_succ_of_step (M := core) 0 hrefault)
  exact ⟨hrun, _, hrun', rfl, rfl, rfl⟩

end Sys2Proof.Machine

/-! Family `70_reset_and_hazards.md`: reset, the host's other moves, and whole runs. A step takes one move off the
host's list and leaves the others, and it gives a response exactly when that move is a command; a run over all the moves
follows by induction on the list. -/

namespace Sys2Proof.Machine

open Sys2Proof.Claims

/-! ### One step (R330, R331, R353) -/

/-- The step takes the next move. -/
theorem step_of_cons {s : State} {m : HostMove s.inst.w} {rest : List (HostMove s.inst.w)} (h : s.inputs = m :: rest) :
    step s = hostMove { s with inputs := rest } m := by
  obtain ⟨h', -⟩ | ⟨req, rest', h', hstep⟩ | ⟨rest', h', hstep⟩ | ⟨level, rest', h', hstep⟩ := step_cases s
  · simp [h] at h'
  all_goals
    rw [h] at h'
    cases h'
    exact hstep

theorem step_of_idle {s : State} (h : s.inputs = []) : step s = .next s := by
  obtain ⟨-, hstep⟩ | ⟨req, rest, h', -⟩ | ⟨rest, h', -⟩ | ⟨level, rest, h', -⟩ := step_cases s
  · exact hstep
  all_goals simp [h] at h'

/-- From `s` to `t` no move of the host is taken, and `k` responses are given. -/
def Responded (k : Nat) (s t : State) : Prop :=
  t.inputs.length = s.inputs.length ∧ t.inputs.countP isCommand = s.inputs.countP isCommand ∧
    t.responses.length = s.responses.length + k

theorem responded_raise (s : State) (c : Cause) : Responded 1 s (s.raise c) := ⟨rfl, rfl, rfl⟩

theorem responded_reject (s : State) : Responded 1 s s.reject := ⟨rfl, rfl, rfl⟩

/-- A transaction gives one response and takes no move. -/
theorem transact_responded (s : State) : ∃ t, transact s = .next t ∧ Responded 1 s t := by
  obtain ⟨-, -, h⟩ | ⟨-, ⟨e, -, h⟩ | ⟨i, -, h⟩⟩ := transact_cases s
  · exact ⟨_, h, responded_reject s⟩
  · exact ⟨_, h, responded_raise s _⟩
  · obtain ⟨t, -, ht, -, ⟨c, rfl, -⟩ | ⟨v, x, flags, fault, fcmd, d, w, rfl⟩⟩ :=
      exec_raisesOrAnswers i s s.fault s.fcmd s.inputs s.responses
    · exact ⟨_, h.trans ht, responded_raise s c⟩
    · exact ⟨_, h.trans ht, rfl, rfl, rfl⟩

/-- A step takes the next move and leaves the others, with a response when the move is a command. -/
theorem step_responded {s : State} {m : HostMove s.inst.w} {rest : List (HostMove s.inst.w)}
    (h : s.inputs = m :: rest) :
    ∃ t, step s = .next t ∧ Responded (isCommand m).toNat { s with inputs := rest } t := by
  rw [step_of_cons h]
  cases m with
  | command req => exact transact_responded (State.accept { s with inputs := rest } req)
  | reset => exact ⟨_, rfl, rfl, rfl, rfl⟩
  | strap level => exact ⟨_, rfl, rfl, rfl, rfl⟩

/-- As many steps as there are moves take them all, and give a response for each command. -/
theorem run_responded (k : Nat) (s : State) (hk : s.inputs.length = k) :
    ∃ t, core.run k s = .next t ∧ t.inputs.length = 0 ∧
      t.responses.length = s.responses.length + s.inputs.countP isCommand := by
  induction k generalizing s with
  | zero => exact ⟨s, rfl, hk, by rw [List.length_eq_zero_iff.1 hk]; rfl⟩
  | succ k ih =>
    obtain ⟨m, rest, hin⟩ := List.exists_cons_of_length_eq_add_one hk
    obtain ⟨t, hstep, hlength, hcount, hresponses⟩ := step_responded hin
    have hrest : rest.length = k := Nat.succ.inj ((congrArg List.length hin).symm.trans hk)
    obtain ⟨u, hrun, hnone, hu⟩ := ih t (hlength.trans hrest)
    refine ⟨u, (run_succ_of_step (M := core) k hstep).trans hrun, hnone, ?_⟩
    rw [hu, hresponses, hcount, hin, List.countP_cons]
    cases isCommand m with
    | false => rfl
    | true => exact Nat.add_right_comm _ _ _

/-! ### The obligations -/

/-- Settles O11: the run takes as many steps as there are moves. -/
theorem runAnswersEveryCommand : Obligations.RunAnswersEveryCommand :=
  fun s => run_responded s.inputs.length s rfl

/-- Settles O13: the three steps that take no command. -/
theorem hostMovesBesideCommands : Obligations.HostMovesBesideCommands := by
  intro s rest
  exact ⟨step_of_idle,
    fun h => ⟨_, step_of_cons h, rfl, rfl, rfl, rfl, faultActive_zero, rfl, rfl, rfl, rfl⟩,
    fun level h => step_of_cons h⟩

/-- Settles O15: the control registers of a run's beginning are zero but for `CFG`, which holds the strap. -/
theorem resetStateWellFormed : Obligations.ResetStateWellFormed := by
  have hflags : FlagsWf 0 := by decide
  exact ⟨hflags, .inl ⟨rfl, rfl⟩, .inr rfl⟩

end Sys2Proof.Machine
